-- ==== Sys2Proof/Word.lean ====
section
/-! DEFINITION. The word types of WIRE-PE and their plainest arithmetic (R7, R9 of 00_scope.md). -/

namespace Sys2Proof

/-- A byte is 8 bits (R7). -/
abbrev Byte := BitVec 8

/-- A 7-bit target address, before it is shifted into transmission position (R100, R260). -/
abbrev Address7 := BitVec 7

/-- A callback handle: opaque, 0 means "none registered" (R7, R25). -/
abbrev Handle := BitVec 32

/-- A bus frequency in hertz (R7, R100). -/
abbrev Hertz := BitVec 32

/-- The word of the response port (R102). -/
abbrev Response := BitVec 16

/-- A host command word, opcode in bits 39..32 and argument in bits 31..0 (R100). -/
abbrev CommandWord := BitVec 40

/-- The dispatcher's key, `ack_matters ++ SSTATUS` (R110). -/
abbrev Key := BitVec 9

/-- `clamp(v, lo, hi) = max(lo, min(hi, v))` (R9). -/
def clamp (v lo hi : Int) : Int := max lo (min hi v)

end Sys2Proof
end

