-- ==== Sys2Proof/Syntax.lean ====
section
/-! DEFINITION. The instructions: one constructor for each mnemonic of spec/opcode_table.json. -/

namespace Sys2Proof

/-- An instruction of WIRE-PE: a host command (R101), a dispatcher branch (R110) or a port command code (R120, R121).
A dispatcher branch carries the status key it was selected by, so that its word is not lost (log entry 17). -/
inductive Instr where
  -- stream group (R101)
  | beginTransmission (address : Address7)
  | write (byte : Byte)
  | endTransmission (sendStop : Bool)
  | request (address : Address7) (count : Byte) (sendStop : Bool)
  | available
  | read
  | peek
  | flush
  -- session group
  | enableMaster
  | enableTarget (address : Address7) (acceptBroadcast : Bool) (addressMask : Byte)
  | disableMaster
  | disableTarget
  -- configuration group
  | setClock (frequency : Hertz)
  | getIncoming
  | onReceive (handle : Handle)
  | onRequest (handle : Handle)
  | calcBaud (frequency : Hertz)
  -- pin group
  | selectPins (sda scl : Byte)
  | swapPins (pinSet : Byte)
  | pullups
  -- callback group
  | cbReturn
  -- dispatcher branches (R110, R215 to R223)
  | tBuserr (key : Key)
  | tStop (key : Key)
  | tAddrW (key : Key)
  | tAddrR (key : Key)
  | tDataRx (key : Key)
  | tDataReq (key : Key)
  | tNack (key : Key)
  | tIllegal (key : Key)
  -- master command codes (R120)
  | mRepstart
  | mAckRecv
  | mStop
  | mNackHold
  | mNackStop
  -- target command codes (R121)
  | tWaitStart
  | tAckResponse
  | tNackWaitStart
  deriving DecidableEq, Repr

/-- An encoded instruction: its word, and which of the four encoding spaces of the opcode table the word stands in.
A byte written to MCMD and the same byte written to SCMD are different instructions (R120, R121; log entry 15). -/
inductive Encoded where
  | command (word : CommandWord)
  | key (key : Key)
  | masterCode (code : Byte)
  | targetCode (code : Byte)
  deriving DecidableEq, Repr

/-- Why the command port refuses a word (R132, R164, R166, R298). -/
inductive RefuseReason where
  | unknownOpcode
  | reservedBits
  | wrongContext
  | zeroFrequency
  deriving DecidableEq, Repr

end Sys2Proof
end

