-- ==== Sys2Proof/WellFormed.lean ====
section
/-! DEFINITION. Which terms of Instr are instructions: a dispatcher branch must carry a key that the (mask, match)
pairs of R110 (30_encoding.md) give to that branch. Operands of host commands are bounded by their types (R100). -/

namespace Sys2Proof

/-- `key & mask = match`, the test of R110. -/
def keyMatches (mask pattern key : Key) : Bool := key &&& mask == pattern

/-- The check on each instruction; the pairs are those of R110, in its order. -/
def Instr.wf : Instr → Bool
  | .beginTransmission _ => true
  | .write _ => true
  | .endTransmission _ => true
  | .request _ _ _ => true
  | .available => true
  | .read => true
  | .peek => true
  | .flush => true
  | .enableMaster => true
  | .enableTarget _ _ _ => true
  | .disableMaster => true
  | .disableTarget => true
  | .setClock _ => true
  | .getIncoming => true
  | .onReceive _ => true
  | .onRequest _ => true
  | .calcBaud _ => true
  | .selectPins _ _ => true
  | .swapPins _ => true
  | .pullups => true
  | .cbReturn => true
  | .tBuserr k => keyMatches 0x004 0x004 k || keyMatches 0x008 0x008 k
  | .tStop k => keyMatches 0x0CD 0x040 k
  | .tAddrW k => keyMatches 0x0CF 0x041 k
  | .tAddrR k => keyMatches 0x0CF 0x043 k
  | .tDataRx k => keyMatches 0x0CE 0x080 k
  | .tDataReq k => keyMatches 0x1CE 0x082 k || keyMatches 0x1DE 0x182 k
  | .tNack k => keyMatches 0x1DE 0x192 k
  | .tIllegal k => keyMatches 0x0CC 0x000 k || keyMatches 0x0CC 0x0C0 k
  | .mRepstart => true
  | .mAckRecv => true
  | .mStop => true
  | .mNackHold => true
  | .mNackStop => true
  | .tWaitStart => true
  | .tAckResponse => true
  | .tNackWaitStart => true

end Sys2Proof
end

