-- ==== Sys2Proof/Decode.lean ====
section
/-! DEFINITION. The decoder, total on any word and rejecting by name, and after it the encoder
(30_encoding.md R100, R101, R110, R120, R121; the dispatcher's decode is written from the words of R211). -/

namespace Sys2Proof

/-! ## Host command words (R100, R101) -/

/-- How the argument field of a host command is cut (R100). -/
inductive Format where
  | N | A | B | S | R | T | F | H | P
  deriving DecidableEq, Repr

/-- The bits of `arg` a format does not use; they are reserved and must be 0 (R100). -/
def Format.reserved : Format → BitVec 32
  | .N => 0xFFFFFFFF
  | .A => 0xFFFFFF80
  | .B => 0xFFFFFF00
  | .S => 0xFFFFFFFE
  | .R => 0xFFFE0080
  | .T => 0xFFFF0000
  | .F => 0x00000000
  | .H => 0x00000000
  | .P => 0xFFFF0000

/-- `cmd[39:32]` (R100). -/
def CommandWord.op (w : CommandWord) : Byte := w.extractLsb' 32 8

/-- `cmd[31:0]` (R100). -/
def CommandWord.arg (w : CommandWord) : BitVec 32 := w.extractLsb' 0 32

/-- `arg[6:0]`: the address of formats A, R and T (R100). -/
def argAddress (arg : BitVec 32) : Address7 := arg.extractLsb' 0 7

/-- `arg[7:0]`: the byte of format B, `sda` of format P (R100). -/
def argLow (arg : BitVec 32) : Byte := arg.extractLsb' 0 8

/-- `arg[15:8]`: `count`, `address_mask` or `scl` (R100). -/
def argHigh (arg : BitVec 32) : Byte := arg.extractLsb' 8 8

/-- One row of the opcode map: an opcode, its format, and the instruction its argument spells. -/
structure CommandRow where
  opcode : Byte
  format : Format
  build : BitVec 32 → Instr

/-- The stream group of R101. -/
def streamRows : List CommandRow :=
  [ ⟨0x01, .A, fun a => .beginTransmission (argAddress a)⟩,
    ⟨0x02, .B, fun a => .write (argLow a)⟩,
    ⟨0x03, .S, fun a => .endTransmission (a.getLsbD 0)⟩,
    ⟨0x04, .R, fun a => .request (argAddress a) (argHigh a) (a.getLsbD 16)⟩,
    ⟨0x05, .N, fun _ => .available⟩,
    ⟨0x06, .N, fun _ => .read⟩,
    ⟨0x07, .N, fun _ => .peek⟩,
    ⟨0x08, .N, fun _ => .flush⟩ ]

/-- The session group of R101. -/
def sessionRows : List CommandRow :=
  [ ⟨0x10, .N, fun _ => .enableMaster⟩,
    ⟨0x11, .T, fun a => .enableTarget (argAddress a) (a.getLsbD 7) (argHigh a)⟩,
    ⟨0x12, .N, fun _ => .disableMaster⟩,
    ⟨0x13, .N, fun _ => .disableTarget⟩ ]

/-- The configuration, pin and callback groups of R101. -/
def configurationRows : List CommandRow :=
  [ ⟨0x20, .F, fun a => .setClock a⟩,
    ⟨0x21, .N, fun _ => .getIncoming⟩,
    ⟨0x22, .H, fun a => .onReceive a⟩,
    ⟨0x23, .H, fun a => .onRequest a⟩,
    ⟨0x24, .F, fun a => .calcBaud a⟩,
    ⟨0x28, .P, fun a => .selectPins (argLow a) (argHigh a)⟩,
    ⟨0x29, .B, fun a => .swapPins (argLow a)⟩,
    ⟨0x2A, .N, fun _ => .pullups⟩,
    ⟨0x30, .N, fun _ => .cbReturn⟩ ]

/-- The opcode map of R101. -/
def commandTable : List CommandRow := streamRows ++ (sessionRows ++ configurationRows)

/-- The row of an opcode. -/
def lookupCommand (op : Byte) : Option CommandRow := commandTable.find? (fun r => r.opcode == op)

/-- What decoding a host command word gives: an instruction, or the refusal R132 names. -/
inductive CommandDecode where
  | ok (i : Instr)
  | refuse (r : RefuseReason)
  deriving DecidableEq, Repr

/-- R132. An unknown opcode is refused first, because the format, and so the reserved bits, are known only from the
opcode (95_test_vectors.md section 5.2). -/
def decodeCommand (w : CommandWord) : CommandDecode :=
  match lookupCommand w.op with
  | none => .refuse .unknownOpcode
  | some r => if w.arg &&& r.format.reserved = 0 then .ok (r.build w.arg) else .refuse .reservedBits

/-! ## The dispatcher's status key (R211) -/

/-- The status byte `S` of a key: `key[7:0]`. -/
def Key.status (k : Key) : Byte := k.extractLsb' 0 8

/-- `ack_matters`: `key[8]`. -/
def Key.ackMatters (k : Key) : Bool := k.getLsbD 8

/-- `key = ack_matters ++ S` (R110). -/
def Key.mk (ackMatters : Bool) (status : Byte) : Key := BitVec.ofBool ackMatters ++ status

/-- The decode in the words of R211, which R110 calls normative: the error bits first, then the pair (`DIF`, `APIF`).
In `S`: bit 7 DIF, 6 APIF, 4 RXNACK, 3 COLL, 2 BUSERR, 1 DIR, 0 AP (R50). -/
def decodeKey (k : Key) : Instr :=
  let s := k.status
  let dif := s.getLsbD 7
  let apif := s.getLsbD 6
  let rxnack := s.getLsbD 4
  let dir := s.getLsbD 1
  let ap := s.getLsbD 0
  if s.getLsbD 2 || s.getLsbD 3 then .tBuserr k
  else match dif, apif with
    | false, true =>
      if !ap then .tStop k else if !dir then .tAddrW k else .tAddrR k
    | true, false =>
      if !dir then .tDataRx k else if k.ackMatters && rxnack then .tNack k else .tDataReq k
    | false, false => .tIllegal k
    | true, true => .tIllegal k

/-! ## Command codes (R120, R121) -/

/-- The five master command codes (R120). -/
def decodeMasterCode (c : Byte) : Option Instr :=
  if c = 0x01 then some .mRepstart
  else if c = 0x02 then some .mAckRecv
  else if c = 0x03 then some .mStop
  else if c = 0x04 then some .mNackHold
  else if c = 0x07 then some .mNackStop
  else none

/-- The three target command codes (R121). -/
def decodeTargetCode (c : Byte) : Option Instr :=
  if c = 0x02 then some .tWaitStart
  else if c = 0x03 then some .tAckResponse
  else if c = 0x06 then some .tNackWaitStart
  else none

/-- The decoder of all four spaces. -/
def decode : Encoded → Option Instr
  | .command w => match decodeCommand w with
    | .ok i => some i
    | .refuse _ => none
  | .key k => some (decodeKey k)
  | .masterCode c => decodeMasterCode c
  | .targetCode c => decodeTargetCode c

/-- The space a table row's word stands in, told by the row's width: 40 bits a host command, 9 bits (16 in whole
bytes) a key, 8 bits a command code. An 8-bit word that is a code of both ports is read as MCMD's (log entry 15). -/
def tableWord (nbits w : Nat) : Option Encoded :=
  if nbits = 40 then (if w < 2 ^ 40 then some (.command (BitVec.ofNat 40 w)) else none)
  else if nbits = 16 ∨ nbits = 9 then (if w < 2 ^ 9 then some (.key (BitVec.ofNat 9 w)) else none)
  else if nbits = 8 then
    (if w < 2 ^ 8 then
      (if (decodeMasterCode (BitVec.ofNat 8 w)).isSome then some (.masterCode (BitVec.ofNat 8 w))
       else some (.targetCode (BitVec.ofNat 8 w)))
     else none)
  else none

/-- The instruction the decoder reads from a word of the opcode table. -/
def decodeTableWord (nbits w : Nat) : Option Instr :=
  match tableWord nbits w with
  | some e => decode e
  | none => none

/-! ## The encoder -/

/-- A host command word: opcode in `cmd[39:32]`, argument in `cmd[31:0]` (R100). -/
def commandWord (op : Byte) (arg : BitVec 32) : CommandWord := op ++ arg

/-- The word of an instruction, from the formats of R100, the opcodes of R101 and the codes of R120 and R121. -/
def encode : Instr → Encoded
  | .beginTransmission address => .command (commandWord 0x01 ((0 : BitVec 25) ++ address))
  | .write byte => .command (commandWord 0x02 ((0 : BitVec 24) ++ byte))
  | .endTransmission stop => .command (commandWord 0x03 ((0 : BitVec 31) ++ BitVec.ofBool stop))
  | .request address count stop =>
    .command (commandWord 0x04 ((0 : BitVec 15) ++ BitVec.ofBool stop ++ count ++ (0 : BitVec 1) ++ address))
  | .available => .command (commandWord 0x05 0)
  | .read => .command (commandWord 0x06 0)
  | .peek => .command (commandWord 0x07 0)
  | .flush => .command (commandWord 0x08 0)
  | .enableMaster => .command (commandWord 0x10 0)
  | .enableTarget address broadcast mask =>
    .command (commandWord 0x11 ((0 : BitVec 16) ++ mask ++ BitVec.ofBool broadcast ++ address))
  | .disableMaster => .command (commandWord 0x12 0)
  | .disableTarget => .command (commandWord 0x13 0)
  | .setClock frequency => .command (commandWord 0x20 frequency)
  | .getIncoming => .command (commandWord 0x21 0)
  | .onReceive handle => .command (commandWord 0x22 handle)
  | .onRequest handle => .command (commandWord 0x23 handle)
  | .calcBaud frequency => .command (commandWord 0x24 frequency)
  | .selectPins sda scl => .command (commandWord 0x28 ((0 : BitVec 16) ++ scl ++ sda))
  | .swapPins pinSet => .command (commandWord 0x29 ((0 : BitVec 24) ++ pinSet))
  | .pullups => .command (commandWord 0x2A 0)
  | .cbReturn => .command (commandWord 0x30 0)
  | .tBuserr k => .key k
  | .tStop k => .key k
  | .tAddrW k => .key k
  | .tAddrR k => .key k
  | .tDataRx k => .key k
  | .tDataReq k => .key k
  | .tNack k => .key k
  | .tIllegal k => .key k
  | .mRepstart => .masterCode 0x01
  | .mAckRecv => .masterCode 0x02
  | .mStop => .masterCode 0x03
  | .mNackHold => .masterCode 0x04
  | .mNackStop => .masterCode 0x07
  | .tWaitStart => .targetCode 0x02
  | .tAckResponse => .targetCode 0x03
  | .tNackWaitStart => .targetCode 0x06

end Sys2Proof
end

