-- ==== Sys2Proof/Config.lean ====
section
/-! DEFINITION. The implementation parameters of R6 (00_scope.md) and the free values of 93_implementation_defined.md. -/

namespace Sys2Proof

/-- The four frequency bands of R161, in rising order of frequency. -/
inductive Band where
  | b0 | b1 | b2 | b3
  deriving DecidableEq, Repr

/-- One value for each band: the shape of `RISE_NS`, `OFFSET_A` and `OFFSET_B` (R6). -/
structure PerBand (α : Type) where
  b0 : α
  b1 : α
  b2 : α
  b3 : α
  deriving DecidableEq, Repr

/-- The value a table holds for a band. -/
def PerBand.get {α : Type} (t : PerBand α) : Band → α
  | .b0 => t.b0
  | .b1 => t.b1
  | .b2 => t.b2
  | .b3 => t.b3

/-- The parameters of R6. The document gives none of them a value, so they are data of the machine and every
statement holds for each of their values (log entry 1). -/
structure Params where
  /-- `NUM_INSTANCES`, 1 or 2 -/
  numInstances : Nat
  /-- `SIMULTANEOUS` -/
  simultaneous : Bool
  /-- `BUF_N`, the length of every ring buffer -/
  bufN : Nat
  cpuClockHz : Nat
  cpuThresholdHz : Nat
  riseNs : PerBand Nat
  offsetA : PerBand Int
  offsetB : PerBand Int
  deriving DecidableEq, Repr

/-- The ranges R6 gives the parameters: `NUM_INSTANCES` in {1, 2}, 2 <= `BUF_N` <= 256, a positive clock. -/
def Params.wf (p : Params) : Bool :=
  (p.numInstances == 1 || p.numInstances == 2) && decide (2 ≤ p.bufN) && decide (p.bufN ≤ 256) && decide (0 < p.cpuClockHz)

/-- The reference parameter set P0 of 95_test_vectors.md section 2, with that file's conventions (`BUF_N` = 8,
one instance, `SIMULTANEOUS` true). DESIGN CHOICE (log entry 1): only State.reset uses it. -/
def Params.reference : Params where
  numInstances := 1
  simultaneous := true
  bufN := 8
  cpuClockHz := 16000000
  cpuThresholdHz := 20000000
  riseNs := ⟨1000, 300, 120, 120⟩
  offsetA := ⟨0, 1, -1, -2⟩
  offsetB := ⟨2, 1, 0, -1⟩

/-- FREE VALUE: what GET_INCOMING answers before the first address branch since reset: "`any value` on each
GET_INCOMING" (R271, U6). Applied to the draw counter of State, so each draw is unconstrained (log entry 5). -/
opaque Config.anyIncoming : Nat → Byte

/-- FREE VALUE: the pin collaborator's answer to `select_pins(sda, scl)`, "a Boolean drawn per call" (R274, U7).
Applied to the draw counter of State (log entry 13). -/
opaque Config.selectPinsAnswer : Nat → Byte → Byte → Bool

end Sys2Proof
end

