-- ==== Sys2Proof/Machine/State.lean ====
section
/-! DEFINITION. The state of WIRE-PE as plain data, and its value after reset (10_state.md R20 to R60). -/

namespace Sys2Proof.Machine

/-! ## Ring buffers (R27, R28) -/

/-- A storage array of space RB (R70): the cells that differ from what an unlisted cell reads as, addresses strictly
rising. -/
structure Memory where
  cells : List Host.Cell
  deriving DecidableEq, Repr

/-- A ring buffer: `storage`, the next write position `head`, the next read position `tail` (R28). -/
structure RingBuffer where
  storage : Memory
  head : Nat
  tail : Nat
  deriving DecidableEq, Repr

/-- After reset: both indices 0 (R60); storage lists nothing (log entry 7). -/
def RingBuffer.reset : RingBuffer := ⟨⟨[]⟩, 0, 0⟩

/-- The four buffer names of R27. -/
inductive BufName where
  | masterTx | masterRx | targetTx | targetRx
  deriving DecidableEq, Repr

/-! ## Sequencers (R30, R31), conditions (R290) -/

/-- `mstate` (R30). -/
inductive MState where
  | idle | start | waitBus | addrWait | data | dataWait
  deriving DecidableEq, Repr

/-- `m_kind` (R30). -/
inductive MKind where
  | write | read
  deriving DecidableEq, Repr

/-- `cb_state` (R31). -/
inductive CbState where
  | none | rxStop | rxAddr | req
  deriving DecidableEq, Repr

/-- The values of the ghost `last_fault` (R34, R290). -/
inductive Condition where
  | none | busNotReady | addressNotAcknowledged | arbitrationLost | busError | localBufferFull | roleAlreadyActive
  deriving DecidableEq, Repr

/-! ## The peripheral port (R40) -/

/-- The names of the 13 port registers (R40). -/
inductive PortReg where
  | ctrla | mctrla | mcmd | mstatus | mbaud | maddr | mdata | sctrla | scmd | sstatus | saddr | sdata | saddrmask
  deriving DecidableEq, Repr

/-- The 13 byte-wide port registers (R40). -/
structure Port where
  ctrla : Byte
  mctrla : Byte
  mcmd : Byte
  mstatus : Byte
  mbaud : Byte
  maddr : Byte
  mdata : Byte
  sctrla : Byte
  scmd : Byte
  sstatus : Byte
  saddr : Byte
  sdata : Byte
  saddrmask : Byte
  deriving DecidableEq, Repr

/-- Every port register 0, its reset value (R40, R60). -/
def Port.zero : Port := ⟨0, 0, 0, 0, 0, 0, 0, 0, 0, 0, 0, 0, 0⟩

/-- The port registers the peripheral agent writes: the flags of the two status registers and the two data registers
(R40). -/
inductive PeriphReg where
  | mstatus | sstatus | mdata | sdata
  deriving DecidableEq, Repr

/-! ## One engine instance (R20 to R34) -/

/-- All the state of one instance. -/
structure Engine where
  masterEnabled : Bool
  targetEnabled : Bool
  targetAddress : Byte
  incomingAddress : Byte
  /-- the model's own: an address branch has written `incomingAddress` since reset (R23, U6; log entry 5) -/
  incomingValid : Bool
  ackMatters : Bool
  onReceive : Handle
  onRequest : Handle
  txnAddress : Byte
  masterTx : RingBuffer
  masterRx : RingBuffer
  /-- the separate target buffers, used only when `SIMULTANEOUS` is true (R27; log entry 20) -/
  targetTx : RingBuffer
  targetRx : RingBuffer
  mstate : MState
  mKind : MKind
  mSendStop : Bool
  mCount : Byte
  mN : Byte
  cbState : CbState
  /-- ghost (R34) -/
  lastFault : Condition
  port : Port
  deriving DecidableEq, Repr

/-- An instance after reset (R60), with the port's contents as a parameter (R331). `incomingAddress` and the four
transaction registers have no reset value in the spec: log entries 5 and 6. -/
def Engine.resetWith (port : Port) : Engine where
  masterEnabled := false
  targetEnabled := false
  targetAddress := 0
  incomingAddress := 0
  incomingValid := false
  ackMatters := false
  onReceive := 0
  onRequest := 0
  txnAddress := 0
  masterTx := .reset
  masterRx := .reset
  targetTx := .reset
  targetRx := .reset
  mstate := .idle
  mKind := .write
  mSendStop := false
  mCount := 0
  mN := 0
  cbState := .none
  lastFault := .none
  port := port

/-! ## What is observed, and what the environment offers -/

/-- The instance a command, an event or a register belongs to (R103, R318). -/
inductive InstId where
  | i0 | i1
  deriving DecidableEq, Repr

/-- One observation of R361: a response word or a refusal at the command port, a notification, an engine access to a
port register, a call to the pin collaborator. -/
inductive Obs where
  | respond (v : Response)
  | refused (r : RefuseReason)
  | notifyReceive (handle : Handle) (count : Byte)
  | notifyRequest (handle : Handle)
  | portRead (r : PortReg) (v : Byte)
  | portWrite (r : PortReg) (v : Byte)
  | pinsReset
  | selectPins (sda scl : Byte) (answer : Bool)
  | swapPinSet (pinSet : Byte)
  | enablePullups
  deriving DecidableEq, Repr

/-- What the environment may offer at a step boundary: the kinds of step of R77 and no other, with the data the
environment supplies (log entry 2). -/
inductive Stimulus where
  /-- a host command word at an instance's command port: foreground, or from a callback when one is running (R77(a)(d)) -/
  | command (inst : InstId) (word : CommandWord)
  /-- one Master Engine step of the blocked foreground (R77(b)) -/
  | engine (inst : InstId)
  /-- a bus event (R77(c), R103) -/
  | event (inst : InstId)
  /-- a step of the peripheral agent: it writes any of its registers with any values (R77(e), R12; log entry 11) -/
  | periph (inst : InstId) (writes : List (PeriphReg × Byte))
  deriving DecidableEq, Repr

/-! ## The machine -/

/-- The whole machine. -/
structure State where
  /-- the implementation parameters (R6), written by no step -/
  params : Params
  engine0 : Engine
  engine1 : Engine
  /-- everything observed so far, oldest first (R361; log entry 12) -/
  trace : List (InstId × Obs)
  /-- the model's own: the instance the current step addresses (log entry 19) -/
  sel : InstId
  /-- the model's own: what the environment offers next, first first (log entry 2) -/
  schedule : List Stimulus
  /-- the model's own: how many free values have been drawn (log entries 5 and 13) -/
  draws : Nat
  deriving DecidableEq, Repr

/-- The machine after reset for given parameters and port contents (R60, R330, R331). -/
def State.resetWith (params : Params) (port0 port1 : Port) : State where
  params := params
  engine0 := Engine.resetWith port0
  engine1 := Engine.resetWith port1
  trace := []
  sel := .i0
  schedule := []
  draws := 0

/-- The machine right after reset: all 13 port registers 0 (R60), the reference parameters (log entry 1). -/
def State.reset : State := State.resetWith Params.reference Port.zero Port.zero

/-! ## How a step can stop -/

/-- Faults. There is none: "Nothing in this core is fatal", the engine has "no fault state, no halted state" (R321).
The type has no constructor, so no step of the model can end in a fault. -/
inductive Fault where
  deriving DecidableEq, Repr

/-- Refusals. -/
inductive Refusal where
  /-- Raised only by an arm of `exec` whose instruction has no meaning yet (no arm does). Safe: the run stops. -/
  | notModelled (mnemonic : String)
  deriving DecidableEq, Repr

end Sys2Proof.Machine
end

