-- ==== Sys2Proof/Machine/Flags.lean ====
section
/-! DEFINITION. Every flag of the port's status and control registers (10_state.md R41 to R50) and the predicates the
rules compute from them (R181, R211, R296). -/

namespace Sys2Proof.Machine

/-! ## MSTATUS (R44) -/

/-- The four values of `MSTATUS.BUSSTATE` (R44). -/
inductive BusState where
  | unknown | idle | owner | busy
  deriving DecidableEq, Repr

/-- bit 7 `RIF` -/
def mRif (s : Byte) : Bool := s.getLsbD 7
/-- bit 6 `WIF` -/
def mWif (s : Byte) : Bool := s.getLsbD 6
/-- bit 5 `CLKHOLD` -/
def mClkHold (s : Byte) : Bool := s.getLsbD 5
/-- bit 4 `RXNACK` -/
def mRxNack (s : Byte) : Bool := s.getLsbD 4
/-- bit 3 `ARBLOST` -/
def mArbLost (s : Byte) : Bool := s.getLsbD 3
/-- bit 2 `BUSERR` -/
def mBusErr (s : Byte) : Bool := s.getLsbD 2

/-- bits 1:0 `BUSSTATE`: 0 unknown, 1 idle, 2 owner, 3 busy -/
def busState (s : Byte) : BusState :=
  match s.getLsbD 1, s.getLsbD 0 with
  | false, false => .unknown
  | false, true => .idle
  | true, false => .owner
  | true, true => .busy

/-- `done(s) = (s.RIF = 1 or s.WIF = 1)`, the completion test of every busy-wait (R181). -/
def phaseDone (s : Byte) : Bool := mRif s || mWif s

/-- Test 1 of R185 and R192: arbitration lost or bus error. -/
def phaseAborted (s : Byte) : Bool := mArbLost s || mBusErr s

/-- The condition an abort records: `ArbitrationLost` when both flags are set (R185, R300). -/
def abortCondition (s : Byte) : Condition := if mArbLost s then .arbitrationLost else .busError

/-! ## SSTATUS (R50) -/

/-- bit 7 `DIF` -/
def sDif (s : Byte) : Bool := s.getLsbD 7
/-- bit 6 `APIF` -/
def sApif (s : Byte) : Bool := s.getLsbD 6
/-- bit 5 `CLKHOLD` -/
def sClkHold (s : Byte) : Bool := s.getLsbD 5
/-- bit 4 `RXNACK` -/
def sRxNack (s : Byte) : Bool := s.getLsbD 4
/-- bit 3 `COLL` -/
def sColl (s : Byte) : Bool := s.getLsbD 3
/-- bit 2 `BUSERR` -/
def sBusErr (s : Byte) : Bool := s.getLsbD 2
/-- bit 1 `DIR`, 1 when the master is the reader -/
def sDir (s : Byte) : Bool := s.getLsbD 1
/-- bit 0 `AP`, 1 for an address phase, 0 for a stop condition -/
def sAp (s : Byte) : Bool := s.getLsbD 0

/-! ## Control registers (R41, R42, R48) -/

/-- `CTRLA` bit 1, `FMPEN` (R41). -/
def fmpEn (c : Byte) : Bool := c.getLsbD 1

/-- `MCTRLA` bit 0, `ENABLE` (R42). -/
def masterLogicOn (m : Byte) : Bool := m.getLsbD 0

/-- `SCTRLA` bit 0, `ENABLE` (R48). -/
def targetLogicOn (t : Byte) : Bool := t.getLsbD 0

/-- `SCTRLA[7:5]`: `DIEN`, `APIEN`, `PIEN` (R48). -/
def targetInterrupts (t : Byte) : BitVec 3 := t.extractLsb' 5 3

/-- The port's half of the delivery rule of R296: target logic on and some interrupt enable set. -/
def eventsEnabled (t : Byte) : Bool := targetLogicOn t && targetInterrupts t != 0

/-- `SCTRLA <- 0xE1`: DIEN, APIEN, PIEN and ENABLE (R48, R241). -/
def targetControlOn : Byte := 0xE1

/-- `MCTRLA <- 0x01` (R42, R240). -/
def masterControlOn : Byte := 0x01

/-- `MSTATUS <- 0x01`, "forces bus-state idle" (R44). -/
def forceIdle : Byte := 0x01

/-- `SSTATUS <- 0x40`, "clear the flag" of the stop branch (R50, R216). -/
def clearStop : Byte := 0x40

/-- `FMPEN <- (f > 800000)` on a value of `CTRLA`, every other bit preserved (R41, R166). -/
def withFmpEn (fast : Bool) (c : Byte) : Byte := if fast then c ||| 0x02 else c &&& 0xFD

/-! ## Numbers of the ghost (R290) -/

/-- The number R290 gives a condition. -/
def Condition.number : Condition → Nat
  | .none => 0
  | .busNotReady => 1
  | .addressNotAcknowledged => 2
  | .arbitrationLost => 3
  | .busError => 4
  | .localBufferFull => 5
  | .roleAlreadyActive => 6

/-- The number R30 gives a state of `mstate`. -/
def MState.number : MState → Nat
  | .idle => 0
  | .start => 1
  | .waitBus => 2
  | .addrWait => 3
  | .data => 4
  | .dataWait => 5

/-- The number R31 gives a state of `cb_state`. -/
def CbState.number : CbState → Nat
  | .none => 0
  | .rxStop => 1
  | .rxAddr => 2
  | .req => 3

end Sys2Proof.Machine
end

