-- ==== Sys2Proof/Machine/Operands.lean ====
section
/-! DEFINITION. The operand and result forms of the rules: addresses in transmission position (R22, R26, R46), command
codes (R120, R121) and the words of the response port (R102). -/

namespace Sys2Proof.Machine

/-! ## Address bytes -/

/-- `address << 1`, the 7-bit address "shifted into transmission position", bit 0 clear (R26, R260). -/
def shiftedAddress (a : Address7) : Byte := a ++ (0 : BitVec 1)

/-- `(address << 1) | accept_broadcast` (R22, R241). -/
def ownAddress (a : Address7) (acceptBroadcast : Bool) : Byte := a ++ BitVec.ofBool acceptBroadcast

/-- `txn_address & 0xFE`: "the write-intent bit cleared" (R183). -/
def writeAddress (txn : Byte) : Byte := txn &&& 0xFE

/-- `txn_address | 0x01`: "the read-intent bit set" (R183). -/
def readAddress (txn : Byte) : Byte := txn ||| 0x01

/-- The byte written to MADDR for a transaction of the given kind (R183). -/
def phaseAddress (k : MKind) (txn : Byte) : Byte :=
  match k with
  | .write => writeAddress txn
  | .read => readAddress txn

/-! ## Command codes -/

/-- The five master commands (R120). -/
inductive MasterCommand where
  | repStart | ackRecv | stop | nackHold | nackStop
  deriving DecidableEq, Repr

/-- The byte of a master command: acknowledge action in bit 2, bus command in bits 1:0 (R120). -/
def MasterCommand.code : MasterCommand → Byte
  | .repStart => 0x01
  | .ackRecv => 0x02
  | .stop => 0x03
  | .nackHold => 0x04
  | .nackStop => 0x07

/-- The three target commands (R121). -/
inductive TargetCommand where
  | waitStart | ackResponse | nackWaitStart
  deriving DecidableEq, Repr

/-- The byte of a target command (R121). -/
def TargetCommand.code : TargetCommand → Byte
  | .waitStart => 0x02
  | .ackResponse => 0x03
  | .nackWaitStart => 0x06

/-- The command that ends a master read (R195): NACK and stop, or NACK with the bus kept. -/
def readEndCommand (sendStop : Bool) : MasterCommand := if sendStop then .nackStop else .nackHold

/-! ## Responses (R102) -/

/-- A byte, zero-extended. -/
def byteResponse (b : Byte) : Response := b.setWidth 16

/-- A Boolean: 0 = false, 1 = true. -/
def boolResponse (b : Bool) : Response := if b then 1 else 0

/-- A byte count, zero-extended. -/
def countResponse (n : Nat) : Response := byteResponse (BitVec.ofNat 8 n)

/-- `Option<byte>`: the byte zero-extended, or 0xFFFF for "no data". -/
def optionResponse : Option Byte → Response
  | some b => byteResponse b
  | none => 0xFFFF

end Sys2Proof.Machine
end

