-- ==== Sys2Proof/Machine/Ops.lean ====
section
/-! DEFINITION. The named operations over memory, ring buffers, port registers and the state, the entry to and return
from the bus-event interrupt (60_exceptions.md R296, R301, R302) and the notification of user callbacks (R214). -/

namespace Sys2Proof.Machine

/-! ## Storage cells (R28, R70) -/

/-- What a cell that no entry lists reads as. DESIGN CHOICE, unsafe (log entry 7): the spec leaves storage unspecified
at reset and never lets it be observed (R150). -/
def Memory.unlisted : Byte := 0

/-- Lookup in a list of cells. -/
def readCells (a : Nat) : List Host.Cell → Byte
  | [] => Memory.unlisted
  | (k, v) :: rest => if k = a then v else readCells a rest

/-- Insertion that keeps the canonical form: writing what an unlisted cell reads as removes the entry. -/
def writeCells (a : Nat) (b : Byte) : List Host.Cell → List Host.Cell
  | [] => if b = Memory.unlisted then [] else [(a, b)]
  | (k, v) :: rest =>
    if a < k then (if b = Memory.unlisted then (k, v) :: rest else (a, b) :: (k, v) :: rest)
    else if a = k then (if b = Memory.unlisted then rest else (a, b) :: rest)
    else (k, v) :: writeCells a b rest

/-- `RB.storage[i]` (R10). -/
def Memory.read (m : Memory) (a : Nat) : Byte := readCells a m.cells

/-- `RB.storage[i] <- b` (R10). -/
def Memory.write (m : Memory) (a : Nat) (b : Byte) : Memory := ⟨writeCells a b m.cells⟩

/-- Addresses strictly rising, all below the bound, no entry equal to what an unlisted cell reads as. -/
def cellsWf (bound : Nat) : List Host.Cell → Bool
  | [] => true
  | (k, v) :: rest =>
    decide (k < bound) && v != Memory.unlisted && rest.all (fun c => decide (k < c.1)) && cellsWf bound rest

/-- The canonical form of an array of `n` cells. -/
def Memory.wf (n : Nat) (m : Memory) : Bool := cellsWf n m.cells

/-! ## Ring-buffer primitives (40_ring_buffer.md) -/

/-- `adv(i) = (i + 1) mod N` (R141). -/
def adv (n i : Nat) : Nat := (i + 1) % n

/-- `RB.head = RB.tail` (R142). -/
def RingBuffer.isEmpty (rb : RingBuffer) : Bool := rb.head == rb.tail

/-- `adv(RB.head) = RB.tail` (R143). -/
def RingBuffer.isFull (n : Nat) (rb : RingBuffer) : Bool := adv n rb.head == rb.tail

/-- `try_push` (R144): the Boolean says whether the byte was accepted. -/
def RingBuffer.tryPush (n : Nat) (rb : RingBuffer) (b : Byte) : Bool × RingBuffer :=
  if rb.isFull n then (false, rb)
  else (true, { rb with storage := rb.storage.write rb.head b, head := adv n rb.head })

/-- `pop` (R145). -/
def RingBuffer.pop (n : Nat) (rb : RingBuffer) : Option Byte × RingBuffer :=
  if rb.isEmpty then (none, rb)
  else (some (rb.storage.read rb.tail), { rb with tail := adv n rb.tail })

/-- `peek` (R146). -/
def RingBuffer.peek (rb : RingBuffer) : Option Byte :=
  if rb.isEmpty then none else some (rb.storage.read rb.tail)

/-- `reset`: both indices 0, storage not cleared (R147). -/
def RingBuffer.rewind (rb : RingBuffer) : RingBuffer := { rb with head := 0, tail := 0 }

/-- `discard`: `tail <- head` (R148). -/
def RingBuffer.discard (rb : RingBuffer) : RingBuffer := { rb with tail := rb.head }

/-- `available = (N + head - tail) mod N` (R149). -/
def RingBuffer.available (n : Nat) (rb : RingBuffer) : Nat := (n + rb.head - rb.tail) % n

/-- The unread bytes, oldest first: the cells from `tail` up to but not including `head`, going round (R150, R361). -/
def RingBuffer.unread (n : Nat) (rb : RingBuffer) : List Byte :=
  (List.range (rb.available n)).map (fun k => rb.storage.read ((rb.tail + k) % n))

/-- `write(bytes, len)`, the pseudo-operation WRITE_N (R136, R264): pushes until the first rejection and counts. -/
def RingBuffer.pushAll (n : Nat) (rb : RingBuffer) : List Byte → Nat × RingBuffer
  | [] => (0, rb)
  | b :: rest =>
    match rb.tryPush n b with
    | (true, rb') => let r := rb'.pushAll n rest; (r.1 + 1, r.2)
    | (false, rb') => (0, rb')

/-- The indices are in 0..N-1 (R28) and the storage is in canonical form. -/
def RingBuffer.wf (n : Nat) (rb : RingBuffer) : Bool :=
  decide (rb.head < n) && decide (rb.tail < n) && rb.storage.wf n

/-! ## Port registers (R40) -/

/-- The index of a port register (R40). -/
def PortReg.index : PortReg → Nat
  | .ctrla => 0x00
  | .mctrla => 0x03
  | .mcmd => 0x04
  | .mstatus => 0x05
  | .mbaud => 0x06
  | .maddr => 0x07
  | .mdata => 0x08
  | .sctrla => 0x09
  | .scmd => 0x0A
  | .sstatus => 0x0B
  | .saddr => 0x0C
  | .sdata => 0x0D
  | .saddrmask => 0x0E

/-- `P.REG`: the register's current value (R10, R12). -/
def Port.get (p : Port) : PortReg → Byte
  | .ctrla => p.ctrla
  | .mctrla => p.mctrla
  | .mcmd => p.mcmd
  | .mstatus => p.mstatus
  | .mbaud => p.mbaud
  | .maddr => p.maddr
  | .mdata => p.mdata
  | .sctrla => p.sctrla
  | .scmd => p.scmd
  | .sstatus => p.sstatus
  | .saddr => p.saddr
  | .sdata => p.sdata
  | .saddrmask => p.saddrmask

/-- `P.REG <- v`, an engine write (R10). Every register but one takes the value written. A write of `SSTATUS` clears
the flags that are 1 in the value written: the engine's one write, 0x40, "clears the stop event" (R50, R75, R216).
DEDUCED (log entries 9 and 10); everything else the write does inside the peripheral is the peripheral agent's step. -/
def Port.engineWrite (p : Port) (r : PortReg) (v : Byte) : Port :=
  match r with
  | .ctrla => { p with ctrla := v }
  | .mctrla => { p with mctrla := v }
  | .mcmd => { p with mcmd := v }
  | .mstatus => { p with mstatus := v }
  | .mbaud => { p with mbaud := v }
  | .maddr => { p with maddr := v }
  | .mdata => { p with mdata := v }
  | .sctrla => { p with sctrla := v }
  | .scmd => { p with scmd := v }
  | .sstatus => { p with sstatus := p.sstatus &&& ~~~v }
  | .saddr => { p with saddr := v }
  | .sdata => { p with sdata := v }
  | .saddrmask => { p with saddrmask := v }

/-- One register write of the peripheral agent (R40; log entry 11). -/
def Port.periphWrite (p : Port) (r : PeriphReg) (v : Byte) : Port :=
  match r with
  | .mstatus => { p with mstatus := v }
  | .sstatus => { p with sstatus := v }
  | .mdata => { p with mdata := v }
  | .sdata => { p with sdata := v }

/-- The register writes of one peripheral step, in order. -/
def Port.periphWrites (p : Port) : List (PeriphReg × Byte) → Port
  | [] => p
  | (r, v) :: rest => (p.periphWrite r v).periphWrites rest

/-! ## Buffers of an instance (R27) -/

/-- The buffer a name stands for: with `SIMULTANEOUS` false the target names are the master buffers (R27). -/
def BufName.resolve (simultaneous : Bool) : BufName → BufName
  | .masterTx => .masterTx
  | .masterRx => .masterRx
  | .targetTx => if simultaneous then .targetTx else .masterTx
  | .targetRx => if simultaneous then .targetRx else .masterRx

/-- The buffer stored under a name. -/
def Engine.buffer (e : Engine) : BufName → RingBuffer
  | .masterTx => e.masterTx
  | .masterRx => e.masterRx
  | .targetTx => e.targetTx
  | .targetRx => e.targetRx

/-- Replaces the buffer stored under a name. -/
def Engine.setBuffer (e : Engine) (b : BufName) (rb : RingBuffer) : Engine :=
  match b with
  | .masterTx => { e with masterTx := rb }
  | .masterRx => { e with masterRx := rb }
  | .targetTx => { e with targetTx := rb }
  | .targetRx => { e with targetRx := rb }

/-! ## The selected instance -/

/-- The instance with a given number. -/
def State.engineOf (s : State) : InstId → Engine
  | .i0 => s.engine0
  | .i1 => s.engine1

/-- The other instance's number. -/
def InstId.other : InstId → InstId
  | .i0 => .i1
  | .i1 => .i0

/-- The instance the current step addresses. -/
def State.eng (s : State) : Engine := s.engineOf s.sel

/-- Replaces the selected instance's state. -/
def State.setEng (s : State) (e : Engine) : State :=
  match s.sel with
  | .i0 => { s with engine0 := e }
  | .i1 => { s with engine1 := e }

/-- Addresses an instance. -/
def State.select (s : State) (i : InstId) : State := { s with sel := i }

/-- Whether an instance exists (R6, R318). -/
def State.hasInst (s : State) : InstId → Bool
  | .i0 => true
  | .i1 => s.params.numInstances == 2

/-! ## Reads and writes of the selected instance -/

/-- The buffer a rule's buffer name means on this machine (R27). -/
def State.buf (s : State) (b : BufName) : RingBuffer := s.eng.buffer (b.resolve s.params.simultaneous)

/-- Replaces that buffer. -/
def State.setBuf (s : State) (b : BufName) (rb : RingBuffer) : State :=
  s.setEng (s.eng.setBuffer (b.resolve s.params.simultaneous) rb)

/-- The current value of a port register (R12). -/
def State.port (s : State) (r : PortReg) : Byte := s.eng.port.get r

/-- One byte of space RB: cell `a` of a stored buffer of an instance (R70). -/
def State.readCell (s : State) (i : InstId) (b : BufName) (a : Nat) : Byte := ((s.engineOf i).buffer b).storage.read a

/-! ## Observations (R361) -/

/-- Records an observation of the selected instance. -/
def State.emit (s : State) (o : Obs) : State := { s with trace := s.trace ++ [(s.sel, o)] }

/-- `respond v` (R10, R102). -/
def State.respond (s : State) (v : Response) : State := s.emit (.respond v)

/-- `refuse(reason)`: "ends a host command with no state change and no response value"; the refusal stays in the trace
for the whole run (R10, R298; log entry 4). -/
def State.refuse (s : State) (r : RefuseReason) : State := s.emit (.refused r)

/-- `raise X` is `last_fault <- X` and nothing else (R290). -/
def State.raise (s : State) (c : Condition) : State := s.setEng { s.eng with lastFault := c }

/-- Records the engine's read of a port register (R361). -/
def State.noteRead (s : State) (r : PortReg) : State := s.emit (.portRead r (s.port r))

/-- `P.REG <- v` (R10). -/
def State.writePort (s : State) (r : PortReg) (v : Byte) : State :=
  (s.setEng { s.eng with port := s.eng.port.engineWrite r v }).emit (.portWrite r v)

/-- Issues a master command: the write of its code to `MCMD` (R43, R120). -/
def State.masterCommand (s : State) (c : MasterCommand) : State := s.writePort .mcmd c.code

/-- Issues a target command: the write of its code to `SCMD` (R49, R121). -/
def State.targetCommand (s : State) (c : TargetCommand) : State := s.writePort .scmd c.code

/-! ## Ring-buffer primitives on the machine's buffers -/

/-- `try_push(RB, b)`; a rejected push raises `LocalBufferFull` (R144). -/
def State.tryPush (s : State) (b : BufName) (v : Byte) : Bool × State :=
  match (s.buf b).tryPush s.params.bufN v with
  | (true, rb) => (true, s.setBuf b rb)
  | (false, _) => (false, s.raise .localBufferFull)

/-- `pop(RB)` (R145). -/
def State.pop (s : State) (b : BufName) : Option Byte × State :=
  match (s.buf b).pop s.params.bufN with
  | (some v, rb) => (some v, s.setBuf b rb)
  | (none, _) => (none, s)

/-- `reset(RB)` (R147). -/
def State.rewind (s : State) (b : BufName) : State := s.setBuf b (s.buf b).rewind

/-- `discard(RB)` (R148). -/
def State.discard (s : State) (b : BufName) : State := s.setBuf b (s.buf b).discard

/-- `available(RB)` (R149). -/
def State.available (s : State) (b : BufName) : Nat := (s.buf b).available s.params.bufN

/-! ## Contexts (R262, R275, R304) -/

/-- A callback is running on the selected instance: `cb_state != CB_NONE` (R304). -/
def State.inCallback (s : State) : Bool := s.eng.cbState != .none

/-- `TXB` (R262). -/
def State.txb (s : State) : BufName := if s.inCallback then .targetTx else .masterTx

/-- `RXB` (R262). -/
def State.rxb (s : State) : BufName := if s.inCallback then .targetRx else .masterRx

/-- A command admitted in foreground context only: in a callback it is refused with `WrongContext` (R132, R275). -/
def State.inForeground (s : State) (run : State → State) : State :=
  if s.inCallback then s.refuse .wrongContext else run s

/-! ## The bus-event interrupt (R210, R296, R301, R302) and notifications (R214, R217) -/

/-- The dispatcher's key, `ack_matters ++ SSTATUS` (R110). -/
def State.dispatchKey (s : State) : Key := Key.mk s.eng.ackMatters (s.port .sstatus)

/-- TAKING THE BUS-EVENT INTERRUPT. Entry "saves nothing and changes no engine state by itself" (R301); the run's
first action is the single read of `SSTATUS`, from which the branch is chosen (R210). -/
def State.enterEvent (s : State) : State := s.noteRead .sstatus

/-- RETURN FROM THE BUS-EVENT INTERRUPT: "Return is the end of the run: cb_state = CB_NONE"; nothing is restored
because nothing was saved (R302). -/
def State.endRun (s : State) : State := s.setEng { s.eng with cbState := .none }

/-- `notify on_receive(c)` with continuation `k`, a callback being registered (R214). -/
def State.notifyReceive (s : State) (k : CbState) (c : Byte) : State :=
  (s.setEng { s.eng with cbState := k }).emit (.notifyReceive s.eng.onReceive c)

/-- `notify on_request()`, a callback being registered (R214). -/
def State.notifyRequest (s : State) : State :=
  (s.setEng { s.eng with cbState := .req }).emit (.notifyRequest s.eng.onRequest)

/-- `deliver_rx(K)` (R217) and what follows it: with unread bytes and a registered callback the run is suspended in
the callback; otherwise the bytes are discarded and the run goes on with `after`. -/
def State.deliverRx (s : State) (k : CbState) (after : State → State) : State :=
  if s.available .targetRx ≠ 0 ∧ s.eng.onReceive ≠ 0 then
    s.notifyReceive k (BitVec.ofNat 8 (s.available .targetRx))
  else after (s.discard .targetRx)

/-- The end of an address-reader run: `P.SCMD <- T_ACK_RESPONSE`, issued last (R219, R278). -/
def State.acknowledgeAndEnd (s : State) : State := (s.targetCommand .ackResponse).endRun

/-- The second half of the address-reader branch: `notify on_request()`, then the acknowledge (R219, R278). -/
def State.requestPhase (s : State) : State :=
  if s.eng.onRequest ≠ 0 then s.notifyRequest else s.acknowledgeAndEnd

end Sys2Proof.Machine
end

