-- ==== Sys2Proof/Machine/Callback.lean ====
section
/-! DEFINITION. CB_RETURN: the return from a user callback resumes the suspended dispatcher run (R278). The user code of
a callback: a function from what it can see to a finite list of admitted commands ending in CB_RETURN (R35, R275). -/

namespace Sys2Proof.Machine

/-- CB_RETURN (R278): no response word; refused in foreground context (R132, R275). -/
def execCbReturn (s : State) : Host.Outcome State Fault Refusal :=
  match s.eng.cbState with
  | .none => .next (s.refuse .wrongContext)
  | .rxStop => .next (s.discard .targetRx).endRun
  | .rxAddr => .next (s.discard .targetRx).requestPhase
  | .req => .next s.acknowledgeAndEnd

/-! ## User code (R35, R214, R275, R352) -/

/-- The commands user code may issue before its CB_RETURN (R275). -/
inductive CallbackCommand where
  | write (byte : Byte)
  | available
  | read
  | peek
  | getIncoming
  deriving DecidableEq, Repr

/-- The host command it is. -/
def CallbackCommand.instr : CallbackCommand → Instr
  | .write byte => .write byte
  | .available => .available
  | .read => .read
  | .peek => .peek
  | .getIncoming => .getIncoming

/-- The word of a host command. -/
def hostWord (i : Instr) : CommandWord :=
  match encode i with
  | .command w => w
  | _ => 0

/-- A finite list of admitted commands ending in CB_RETURN, as words at the command port (R275). -/
def callbackWords (commands : List CallbackCommand) : List CommandWord :=
  commands.map (fun c => hostWord c.instr) ++ [hostWord .cbReturn]

/-- The engine state visible to user code when it is called: its argument, if it has one (R214), and what the admitted
commands can show it (R275). -/
structure Visible where
  /-- the count given to `on_receive`; `on_request` has no argument -/
  argument : Option Byte
  /-- the unread bytes of `RXB`, oldest first: what AVAILABLE, PEEK and READ show -/
  received : List Byte
  /-- the free bytes of `TXB`: how many WRITEs will be accepted -/
  room : Nat
  /-- what GET_INCOMING will answer -/
  incoming : Byte
  deriving DecidableEq, Repr

/-- What a callback of an instance, called with the given argument, can see. -/
def State.visible (s : State) (i : InstId) (argument : Option Byte) : Visible where
  argument := argument
  received := ((s.engineOf i).buffer (BufName.targetRx.resolve s.params.simultaneous)).unread s.params.bufN
  room := s.params.bufN - 1 -
    ((s.engineOf i).buffer (BufName.targetTx.resolve s.params.simultaneous)).available s.params.bufN
  incoming := if (s.engineOf i).incomingValid then (s.engineOf i).incomingAddress else Config.anyIncoming s.draws

/-- The user code of the callbacks: for each handle a function from the visible engine state to the commands it issues,
fixed for the run (R35, R275, R352). A parameter of claims, not state. -/
abbrev UserCode := Handle → Visible → List CallbackCommand

/-- The handle and argument of the call an instance's callback has just received and not yet acted on: a callback is
running there and the newest observation is its notification (R214). -/
def State.called (s : State) (i : InstId) : Option (Handle × Option Byte) :=
  if (s.engineOf i).cbState = .none then none
  else match s.trace.getLast? with
    | some (j, .notifyReceive handle count) => if j = i then some (handle, some count) else none
    | some (j, .notifyRequest handle) => if j = i then some (handle, none) else none
    | _ => none

/-- The host command words offered to an instance, in order. -/
def commandsFor (i : InstId) (offers : List Stimulus) : List CommandWord :=
  offers.filterMap fun x =>
    match x with
    | .command j w => if j = i then some w else none
    | _ => none

end Sys2Proof.Machine
end

