-- ==== Sys2Proof/Machine/Baud.lean ====
section
/-! DEFINITION. The baud-rate timing calculator and the reprogramming sequence (41_baud.md R160 to R167). -/

namespace Sys2Proof.Machine

/-- `band(f)`: <= 100 kHz, <= 400 kHz, <= 800 kHz, above (R161). -/
def band (f : Nat) : Band :=
  if f ≤ 100000 then .b0
  else if f ≤ 400000 then .b1
  else if f ≤ 800000 then .b2
  else .b3

/-- `offset(b)`: table B when the clock exceeds the threshold, else table A (R162). -/
def bandOffset (p : Params) (b : Band) : Int :=
  if p.cpuClockHz > p.cpuThresholdHz then p.offsetB.get b else p.offsetA.get b

/-- `t` of R163 before the clamp, in unbounded integers. -/
def rawTiming (p : Params) (f : Nat) : Int :=
  let q : Int := (p.cpuClockHz / (2 * f) : Nat)
  let mhz : Nat := p.cpuClockHz / 1000000
  let r : Int := (mhz * p.riseNs.get (band f) / 2000 : Nat)
  q - (5 + r) + bandOffset p (band f)

/-- The clamped timing value as an integer (R163). -/
def timing (p : Params) (f : Nat) : Int := clamp (rawTiming p f) 1 255

/-- `calc_baud(f)` (R160, R163), a byte. -/
def calcBaud (p : Params) (f : Hertz) : Byte := BitVec.ofNat 8 (timing p f.toNat).toNat

/-- The fast-mode-plus condition, `f > 800000` (R166). -/
def fastMode (f : Hertz) : Bool := decide (f.toNat > 800000)

/-- The port writes of a reprogramming, `m` being the saved `MCTRLA` (R166). -/
def State.reprogram (s : State) (new m : Byte) (fast : Bool) : State :=
  let s := (s.writePort .mctrla 0x00).writePort .mbaud new
  let c := s.port .ctrla
  let s := (s.noteRead .ctrla).writePort .ctrla (withFmpEn fast c)
  if masterLogicOn m then (s.writePort .mctrla m).writePort .mstatus forceIdle else s

/-- `set_baud(f)` (R166): frequency 0 is refused; an unchanged timing value writes nothing. -/
def State.setBaud (s : State) (f : Hertz) : State :=
  if f = 0 then s.refuse .zeroFrequency
  else
    let new := calcBaud s.params f
    let cur := s.port .mbaud
    let s := s.noteRead .mbaud
    if new = cur then s.respond 0
    else
      let m := s.port .mctrla
      ((s.noteRead .mctrla).reprogram new m (fastMode f)).respond 0

end Sys2Proof.Machine
end

