-- ==== Sys2Proof/Machine/Configuration.lean ====
section
/-! DEFINITION. The configuration commands SET_CLOCK, GET_INCOMING, ON_RECEIVE, ON_REQUEST, CALC_BAUD
(45_stream_api.md R270 to R273, 41_baud.md R164). -/

namespace Sys2Proof.Machine

/-- SET_CLOCK is `set_baud` (R270, R166). -/
def execSetClock (frequency : Hertz) (s : State) : Host.Outcome State Fault Refusal :=
  .next (s.inForeground fun s => s.setBaud frequency)

/-- GET_INCOMING, in both contexts (R271). Before the first address branch since reset the result is any value, drawn
anew at each command (U6; log entry 5). -/
def execGetIncoming (s : State) : Host.Outcome State Fault Refusal :=
  .next (if s.eng.incomingValid then s.respond (byteResponse s.eng.incomingAddress)
    else { s.respond (byteResponse (Config.anyIncoming s.draws)) with draws := s.draws + 1 })

/-- ON_RECEIVE: "last registration wins" (R272). -/
def execOnReceive (handle : Handle) (s : State) : Host.Outcome State Fault Refusal :=
  .next (s.inForeground fun s => (s.setEng { s.eng with onReceive := handle }).respond 0)

/-- ON_REQUEST (R273). -/
def execOnRequest (handle : Handle) (s : State) : Host.Outcome State Fault Refusal :=
  .next (s.inForeground fun s => (s.setEng { s.eng with onRequest := handle }).respond 0)

/-- CALC_BAUD (R164). -/
def execCalcBaud (frequency : Hertz) (s : State) : Host.Outcome State Fault Refusal :=
  .next (s.inForeground fun s =>
    if frequency = 0 then s.refuse .zeroFrequency
    else s.respond (byteResponse (calcBaud s.params frequency)))

end Sys2Proof.Machine
end

