-- ==== Sys2Proof/Machine/Dispatcher.lean ====
section
/-! DEFINITION. The eight branches of the target event dispatcher (43_target_dispatcher.md R215 to R223). The key a
branch carries selected it and is not read again: "The dispatcher reads SSTATUS once per run" (R210). -/

namespace Sys2Proof.Machine

/-- `incoming_address <- P.SDATA` (R52, R218, R219). -/
def State.latchIncoming (s : State) : State :=
  (s.noteRead .sdata).setEng { s.eng with incomingAddress := s.port .sdata, incomingValid := true }

/-- T_BUSERR: drain the data register, reset both target buffers, no command, no notification (R215, R294). -/
def execTBuserr (_key : Key) (s : State) : Host.Outcome State Fault Refusal :=
  .next ((((s.noteRead .sdata).rewind .targetRx).rewind .targetTx).raise .busError)

/-- T_STOP: clear the flag, deliver what was received (R216, R217). -/
def execTStop (_key : Key) (s : State) : Host.Outcome State Fault Refusal :=
  .next ((s.writePort .sstatus clearStop).deliverRx .rxStop State.endRun)

/-- T_ADDR_W: latch the address, acknowledge (R218). -/
def execTAddrW (_key : Key) (s : State) : Host.Outcome State Fault Refusal :=
  .next (s.latchIncoming.targetCommand .ackResponse)

/-- T_ADDR_R: latch the address, deliver what was received, ask for the reply, acknowledge last (R219). -/
def execTAddrR (_key : Key) (s : State) : Host.Outcome State Fault Refusal :=
  .next (s.latchIncoming.deliverRx .rxAddr State.requestPhase)

/-- T_DATA_RX: buffer the byte and acknowledge, or on a full buffer NACK and discard everything (R220, R295). -/
def execTDataRx (_key : Key) (s : State) : Host.Outcome State Fault Refusal :=
  .next (if (s.buf .targetRx).isFull s.params.bufN then
      ((s.raise .localBufferFull).targetCommand .nackWaitStart).discard .targetRx
    else
      ((s.noteRead .sdata).tryPush .targetRx (s.port .sdata)).2.targetCommand .ackResponse)

/-- T_DATA_REQ: `ack_matters` set on entry; send a staged byte, or wait for a start (R221). -/
def execTDataReq (_key : Key) (s : State) : Host.Outcome State Fault Refusal :=
  let s := s.setEng { s.eng with ackMatters := true }
  match s.pop .targetTx with
  | (some b, t) => .next ((t.writePort .sdata b).targetCommand .ackResponse)
  | (none, t) => .next (t.targetCommand .waitStart)

/-- T_NACK: the master chose to stop; discard the unsent bytes (R222). -/
def execTNack (_key : Key) (s : State) : Host.Outcome State Fault Refusal :=
  .next (((s.setEng { s.eng with ackMatters := false }).targetCommand .waitStart).discard .targetTx)

/-- T_ILLEGAL: NACK and wait for a start "as a safe abort, with no notification" (R223). -/
def execTIllegal (_key : Key) (s : State) : Host.Outcome State Fault Refusal :=
  .next (s.targetCommand .nackWaitStart)

end Sys2Proof.Machine
end

