-- ==== Sys2Proof/Machine/Pins.lean ====
section
/-! DEFINITION. The pin commands, forwarded to the pin collaborator and never interpreted (R53, R274, R276, R277). -/

namespace Sys2Proof.Machine

/-- SELECT_PINS: "the result is whatever the collaborator answers (a model draws it)" (R274, U7; log entry 13). -/
def execSelectPins (sda scl : Byte) (s : State) : Host.Outcome State Fault Refusal :=
  .next (s.inForeground fun s =>
    let answer := Config.selectPinsAnswer s.draws sda scl
    { (s.emit (.selectPins sda scl answer)).respond (boolResponse answer) with draws := s.draws + 1 })

/-- SWAP_PINS (R276). -/
def execSwapPins (pinSet : Byte) (s : State) : Host.Outcome State Fault Refusal :=
  .next (s.inForeground fun s => (s.emit (.swapPinSet pinSet)).respond 0)

/-- PULLUPS (R277). -/
def execPullups (s : State) : Host.Outcome State Fault Refusal :=
  .next (s.inForeground fun s => (s.emit .enablePullups).respond 0)

end Sys2Proof.Machine
end

