-- ==== Sys2Proof/Machine/PortCommands.lean ====
section
/-! DEFINITION. The port command codes as instructions: each is the write of its byte to MCMD or SCMD (30_encoding.md
R120 to R129), the one operation by which the Master Engine's steps and the dispatcher's branches issue it. No step
consists of a code alone (R70, R77; log entry 16). What the peripheral does with the command is the peripheral agent's
step (R12, U1). -/

namespace Sys2Proof.Machine

/-- M_REPSTART, 0x01: the handle's "repeated-start" command; no rule of the engine issues it (R126). -/
def execMRepstart (s : State) : Host.Outcome State Fault Refusal := .next (s.masterCommand .repStart)

/-- M_ACK_RECV, 0x02: "acknowledge and continue" (R123). -/
def execMAckRecv (s : State) : Host.Outcome State Fault Refusal := .next (s.masterCommand .ackRecv)

/-- M_STOP, 0x03: "Issue STOP" (R122). -/
def execMStop (s : State) : Host.Outcome State Fault Refusal := .next (s.masterCommand .stop)

/-- M_NACK_HOLD, 0x04: not-acknowledge and keep the bus (R125). -/
def execMNackHold (s : State) : Host.Outcome State Fault Refusal := .next (s.masterCommand .nackHold)

/-- M_NACK_STOP, 0x07: "final NACK+STOP" (R124). -/
def execMNackStop (s : State) : Host.Outcome State Fault Refusal := .next (s.masterCommand .nackStop)

/-- T_WAIT_START, 0x02: "wait for a start condition" (R128). -/
def execTWaitStart (s : State) : Host.Outcome State Fault Refusal := .next (s.targetCommand .waitStart)

/-- T_ACK_RESPONSE, 0x03: acknowledge and continue in the current direction (R127). -/
def execTAckResponse (s : State) : Host.Outcome State Fault Refusal := .next (s.targetCommand .ackResponse)

/-- T_NACK_WAIT_START, 0x06: "force NACK and wait for start as a safe abort" (R129). -/
def execTNackWaitStart (s : State) : Host.Outcome State Fault Refusal := .next (s.targetCommand .nackWaitStart)

end Sys2Proof.Machine
end

