-- ==== Sys2Proof/Machine/Session.lean ====
section
/-! DEFINITION. The bus session controller: FLUSH and the four enables and disables (44_session_controller.md). -/

namespace Sys2Proof.Machine

/-- The guard of ENABLE_MASTER: "simultaneous mode allows target-while-enabling-master" (R240, R245). -/
def State.masterGuard (s : State) : Bool :=
  if s.params.simultaneous then s.eng.masterEnabled else s.eng.masterEnabled || s.eng.targetEnabled

/-- The guard of ENABLE_TARGET (R241, R245). -/
def State.targetGuard (s : State) : Bool :=
  if s.params.simultaneous then s.eng.targetEnabled else s.eng.masterEnabled || s.eng.targetEnabled

/-- ENABLE_MASTER (R240). -/
def execEnableMaster (s : State) : Host.Outcome State Fault Refusal :=
  .next (s.inForeground fun s =>
    if s.masterGuard then (s.raise .roleAlreadyActive).respond 0
    else
      let s := s.emit .pinsReset
      let s := s.setEng { s.eng with masterEnabled := true }
      ((s.writePort .mctrla masterControlOn).writePort .mstatus forceIdle).respond 0)

/-- ENABLE_TARGET (R241). -/
def execEnableTarget (address : Address7) (acceptBroadcast : Bool) (addressMask : Byte) (s : State) :
    Host.Outcome State Fault Refusal :=
  .next (s.inForeground fun s =>
    if s.targetGuard then (s.raise .roleAlreadyActive).respond 0
    else
      let own := ownAddress address acceptBroadcast
      let s := s.setEng { s.eng with targetEnabled := true, targetAddress := own }
      let s := ((s.writePort .saddr own).writePort .saddrmask addressMask).writePort .sctrla targetControlOn
      let m := s.port .mctrla
      ((s.noteRead .mctrla).writePort .mctrla (m ||| 0x01)).respond 0)

/-- DISABLE_MASTER (R242). -/
def execDisableMaster (s : State) : Host.Outcome State Fault Refusal :=
  .next (s.inForeground fun s =>
    let s := s.writePort .mctrla 0x00
    let s := s.setEng { s.eng with masterEnabled := false }
    ((s.rewind .masterTx).rewind .masterRx).respond 0)

/-- DISABLE_TARGET (R243). -/
def execDisableTarget (s : State) : Host.Outcome State Fault Refusal :=
  .next (s.inForeground fun s =>
    let s := ((s.writePort .sctrla 0x00).writePort .saddr 0x00).writePort .saddrmask 0x00
    let s := s.setEng { s.eng with targetEnabled := false }
    ((s.rewind .targetTx).rewind .targetRx).respond 0)

/-- Switches a control register off and back to the value read (R244). -/
def State.cycle (s : State) (r : PortReg) : State :=
  ((s.noteRead r).writePort r 0x00).writePort r (s.port r)

/-- FLUSH (R244, R269). With `SIMULTANEOUS` false the four resets are two (R27). -/
def execFlush (s : State) : Host.Outcome State Fault Refusal :=
  .next (s.inForeground fun s =>
    let s := (((s.rewind .masterTx).rewind .masterRx).rewind .targetTx).rewind .targetRx
    let m := s.port .mctrla
    let s := (s.cycle .mctrla).cycle .sctrla
    let s := if masterLogicOn m then s.writePort .mstatus forceIdle else s
    s.respond 0)

end Sys2Proof.Machine
end

