-- ==== Sys2Proof/Machine/Stream.lean ====
section
/-! DEFINITION. The byte-stream commands BEGIN, WRITE, END, REQUEST, AVAILABLE, READ, PEEK (45_stream_api.md). -/

namespace Sys2Proof.Machine

/-- BEGIN, `begin_transmission(address)` (R260). -/
def execBegin (address : Address7) (s : State) : Host.Outcome State Fault Refusal :=
  .next (s.inForeground fun s =>
    ((s.setEng { s.eng with txnAddress := shiftedAddress address }).rewind .masterTx).respond 0)

/-- WRITE, `write(byte) -> accepted:bool`, in both contexts (R261). -/
def execWrite (byte : Byte) (s : State) : Host.Outcome State Fault Refusal :=
  let r := s.tryPush s.txb byte
  .next (r.2.respond (boolResponse r.1))

/-- Starts a Master Engine transaction: what END and REQUEST do before the engine's own steps (R182, R189). -/
def State.startTransaction (s : State) (kind : MKind) (count : Byte) (sendStop : Bool) : State :=
  s.setEng { s.eng with mKind := kind, mCount := count, mSendStop := sendStop, mN := 0, mstate := .start }

/-- END, `end_transmission(send_stop)` (R263). The response comes when the Master Engine returns to `M_IDLE` (R102). -/
def execEnd (sendStop : Bool) (s : State) : Host.Outcome State Fault Refusal :=
  .next (s.inForeground fun s => s.startTransaction .write s.eng.mCount sendStop)

/-- REQUEST, `request_from(address, count, send_stop)` (R265). The response comes as for END. -/
def execRequest (address : Address7) (count : Byte) (sendStop : Bool) (s : State) : Host.Outcome State Fault Refusal :=
  .next (s.inForeground fun s =>
    ((s.setEng { s.eng with txnAddress := shiftedAddress address }).rewind .masterRx).startTransaction .read count sendStop)

/-- AVAILABLE, in both contexts (R266). -/
def execAvailable (s : State) : Host.Outcome State Fault Refusal :=
  .next (s.respond (countResponse (s.available s.rxb)))

/-- READ, in both contexts (R267). -/
def execRead (s : State) : Host.Outcome State Fault Refusal :=
  let r := s.pop s.rxb
  .next (r.2.respond (optionResponse r.1))

/-- PEEK, in both contexts (R268). -/
def execPeek (s : State) : Host.Outcome State Fault Refusal :=
  .next (s.respond (optionResponse (s.buf s.rxb).peek))

end Sys2Proof.Machine
end

