-- ==== Sys2Proof/Machine/Dispatch.lean ====
section
/-! DEFINITION. The meaning of every instruction, one arm each. -/

namespace Sys2Proof.Machine

/-- Runs an instruction on the selected instance. -/
def exec (i : Instr) (s : State) : Host.Outcome State Fault Refusal :=
  match i with
  | .beginTransmission address => Sys2Proof.Machine.execBegin address s
  | .write byte => Sys2Proof.Machine.execWrite byte s
  | .endTransmission sendStop => Sys2Proof.Machine.execEnd sendStop s
  | .request address count sendStop => Sys2Proof.Machine.execRequest address count sendStop s
  | .available => Sys2Proof.Machine.execAvailable s
  | .read => Sys2Proof.Machine.execRead s
  | .peek => Sys2Proof.Machine.execPeek s
  | .flush => Sys2Proof.Machine.execFlush s
  | .enableMaster => Sys2Proof.Machine.execEnableMaster s
  | .enableTarget address broadcast mask => Sys2Proof.Machine.execEnableTarget address broadcast mask s
  | .disableMaster => Sys2Proof.Machine.execDisableMaster s
  | .disableTarget => Sys2Proof.Machine.execDisableTarget s
  | .setClock frequency => Sys2Proof.Machine.execSetClock frequency s
  | .getIncoming => Sys2Proof.Machine.execGetIncoming s
  | .onReceive handle => Sys2Proof.Machine.execOnReceive handle s
  | .onRequest handle => Sys2Proof.Machine.execOnRequest handle s
  | .calcBaud frequency => Sys2Proof.Machine.execCalcBaud frequency s
  | .selectPins sda scl => Sys2Proof.Machine.execSelectPins sda scl s
  | .swapPins pinSet => Sys2Proof.Machine.execSwapPins pinSet s
  | .pullups => Sys2Proof.Machine.execPullups s
  | .cbReturn => Sys2Proof.Machine.execCbReturn s
  | .tBuserr key => Sys2Proof.Machine.execTBuserr key s
  | .tStop key => Sys2Proof.Machine.execTStop key s
  | .tAddrW key => Sys2Proof.Machine.execTAddrW key s
  | .tAddrR key => Sys2Proof.Machine.execTAddrR key s
  | .tDataRx key => Sys2Proof.Machine.execTDataRx key s
  | .tDataReq key => Sys2Proof.Machine.execTDataReq key s
  | .tNack key => Sys2Proof.Machine.execTNack key s
  | .tIllegal key => Sys2Proof.Machine.execTIllegal key s
  | .mRepstart => Sys2Proof.Machine.execMRepstart s
  | .mAckRecv => Sys2Proof.Machine.execMAckRecv s
  | .mStop => Sys2Proof.Machine.execMStop s
  | .mNackHold => Sys2Proof.Machine.execMNackHold s
  | .mNackStop => Sys2Proof.Machine.execMNackStop s
  | .tWaitStart => Sys2Proof.Machine.execTWaitStart s
  | .tAckResponse => Sys2Proof.Machine.execTAckResponse s
  | .tNackWaitStart => Sys2Proof.Machine.execTNackWaitStart s

end Sys2Proof.Machine
end

