-- ==== Sys2Proof/Machine/MasterEngine.lean ====
section
/-! DEFINITION. The steps of the master transaction state machine (42_master_engine.md R181 to R195). Each step takes
one sample of `MSTATUS` and makes every test on it (R181). -/

namespace Sys2Proof.Machine

/-- `mstate <- S`. -/
def State.goto (s : State) (m : MState) : State := s.setEng { s.eng with mstate := m }

/-- `return v` of the procedures: "respond v; mstate <- M_IDLE" (R182). -/
def State.finish (s : State) (v : Response) : State := (s.respond v).goto .idle

/-- Sets `m_n`. -/
def State.setCount (s : State) (n : Byte) : State := s.setEng { s.eng with mN := n }

/-- `m_send_stop <- 1`. -/
def State.forceStop (s : State) : State := s.setEng { s.eng with mSendStop := true }

/-- The abort of a data loop: the condition recorded, response 0, no command, buffers as they are (R185, R192). -/
def State.abort (s : State) (st : Byte) : State := (s.raise (abortCondition st)).finish 0

/-- `M_START` (R183): fail fast when the bus state is unknown. -/
def State.stepStart (s : State) (st : Byte) : State :=
  if busState st = .unknown then (s.raise .busNotReady).finish 0 else s.goto .waitBus

/-- `M_WAIT_BUS` (R183): wait while busy, then write the address. -/
def State.stepWaitBus (s : State) (st : Byte) : State :=
  if busState st = .busy then s
  else (s.writePort .maddr (phaseAddress s.eng.mKind s.eng.txnAddress)).goto .addrWait

/-- `finish` of a master write (R188). -/
def State.finishWrite (s : State) : State :=
  (if s.eng.mSendStop then s.masterCommand .stop else s).finish (byteResponse s.eng.mN)

/-- `finish` of a master read (R195). -/
def State.finishRead (s : State) : State :=
  (s.masterCommand (readEndCommand s.eng.mSendStop)).finish (byteResponse s.eng.mN)

/-- `M_ADDR_WAIT` of a write (R184): retry on arbitration loss, with no limit. -/
def State.stepAddrWaitWrite (s : State) (st : Byte) : State :=
  if !phaseDone st then s
  else if mArbLost st then (s.raise .arbitrationLost).goto .waitBus
  else (s.setCount 0).goto .data

/-- `M_ADDR_WAIT` of a read (R190, R191): not-acknowledged is tested first; no retry. -/
def State.stepAddrWaitRead (s : State) (st : Byte) : State :=
  if !phaseDone st then s
  else if mRxNack st then ((s.raise .addressNotAcknowledged).masterCommand .stop).finish 0
  else if s.eng.mCount = 0 then s.finishRead
  else (s.setCount 0).goto .data

/-- The data write of a master write (R186), `master_tx` not being empty; with it empty, the end (R188). -/
def State.sendNext (s : State) : State :=
  match s.pop .masterTx with
  | (some b, t) => ((t.writePort .mdata b).setCount (t.eng.mN + 1)).goto .dataWait
  | (none, t) => t.finishWrite

/-- `M_DATA` of a write (R185): the tests in the document's order. -/
def State.stepDataWrite (s : State) (st : Byte) : State :=
  if phaseAborted st then s.abort st
  else if mRxNack st then
    let s := s.forceStop
    (if s.eng.mN = 0 then s.raise .addressNotAcknowledged else s).finishWrite
  else s.sendNext

/-- The data read of a master read (R193). -/
def State.receiveNext (s : State) : State :=
  let b := s.port .mdata
  let s := ((s.noteRead .mdata).tryPush .masterRx b).2
  let s := s.setCount (s.eng.mN + 1)
  if s.eng.mN < s.eng.mCount then (s.masterCommand .ackRecv).goto .dataWait
  else s.finishRead

/-- `M_DATA` of a read (R192, R194): the tests in the document's order. -/
def State.stepDataRead (s : State) (st : Byte) : State :=
  if phaseAborted st then s.abort st
  else if (s.buf .masterRx).isFull s.params.bufN then (s.raise .localBufferFull).forceStop.finishRead
  else s.receiveNext

/-- `M_DATA_WAIT` of both kinds (R187): the sample that ends the wait is not reused. -/
def State.stepDataWait (s : State) (st : Byte) : State :=
  if phaseDone st then s.goto .data else s

/-- One Master Engine step (R181): the sample of `MSTATUS`, then what `mstate` and `m_kind` make depend on it. In
`M_IDLE` the engine takes no step. -/
def State.engineStep (s : State) : State :=
  let st := s.port .mstatus
  let t := s.noteRead .mstatus
  match s.eng.mstate, s.eng.mKind with
  | .idle, _ => s
  | .start, _ => t.stepStart st
  | .waitBus, _ => t.stepWaitBus st
  | .addrWait, .write => t.stepAddrWaitWrite st
  | .addrWait, .read => t.stepAddrWaitRead st
  | .data, .write => t.stepDataWrite st
  | .data, .read => t.stepDataRead st
  | .dataWait, _ => t.stepDataWait st

end Sys2Proof.Machine
end

