-- ==== Sys2Proof/Machine/Schedule.lean ====
section
/-! DEFINITION. Scheduling: which offer of the environment is a step of the machine (20_memory.md R77, R78;
60_exceptions.md R296, R318), and what instruction, if any, it makes the machine run. -/

namespace Sys2Proof.Machine

/-- No callback is running on any existing instance, so the foreground is not preempted (R78, R318; log entry 14). -/
def State.foregroundFree (s : State) : Bool :=
  s.engine0.cbState == .none && (!s.hasInst .i1 || s.engine1.cbState == .none)

/-- No blocking command is in progress on any existing instance: the single foreground thread is not inside one
(R78, R318; log entry 14). -/
def State.foregroundIdle (s : State) : Bool :=
  s.engine0.mstate == .idle && (!s.hasInst .i1 || s.engine1.mstate == .idle)

/-- The delivery rule of R296: `cb_state = CB_NONE`, target logic on, some interrupt enable set. -/
def State.deliverable (s : State) (i : InstId) : Bool :=
  (s.engineOf i).cbState == .none && eventsEnabled (s.engineOf i).port.sctrla

/-- Whether the offer is a step the machine may take now (R78). -/
def State.admits (s : State) : Stimulus → Bool
  | .command i _ =>
    s.hasInst i && ((s.engineOf i).cbState != .none || (s.foregroundFree && s.foregroundIdle))
  | .engine i => s.hasInst i && s.foregroundFree && (s.engineOf i).mstate != .idle
  | .event i => s.hasInst i && s.deliverable i
  | .periph i _ => s.hasInst i

/-- What taking an offer comes to: an instruction to run in a state, or the next state itself. -/
inductive Fetched where
  | run (i : Instr) (s : State)
  | done (s : State)
  deriving DecidableEq, Repr

/-- A step of the peripheral agent on the selected instance (R12, R77(e)). It is not an engine access, so it is not
observed (R361). -/
def State.periphStep (s : State) (writes : List (PeriphReg × Byte)) : State :=
  s.setEng { s.eng with port := s.eng.port.periphWrites writes }

/-- The instruction a host command word spells, or its refusal (R132). -/
def State.fetchCommand (s : State) (w : CommandWord) : Fetched :=
  match decodeCommand w with
  | .ok i => .run i s
  | .refuse r => .done (s.refuse r)

/-- Takes an admitted offer. -/
def State.take (s : State) : Stimulus → Fetched
  | .command i w => (s.select i).fetchCommand w
  | .engine i => .done (s.select i).engineStep
  | .event i => .run (decodeKey (s.select i).dispatchKey) (s.select i).enterEvent
  | .periph i writes => .done ((s.select i).periphStep writes)

/-- The next offer: taken when R78 admits it, otherwise not taken (log entry 3). With no offer the machine waits: "after
any command it waits for the next command or event" (R361). -/
def State.fetch (s : State) : Fetched :=
  match s.schedule with
  | [] => .done s
  | x :: rest =>
    if s.admits x then ({ s with schedule := rest } : State).take x else .done { s with schedule := rest }

/-! ## Placing a word of the opcode table (log entry 18) -/

/-- Puts an offer before those already there. -/
def State.offer (s : State) (x : Stimulus) : State := { s with schedule := x :: s.schedule }

/-- A host command word is the next command at instance 0's port. In foreground context it needs the thread free
(R78). -/
def State.placeCommand (s : State) (w : CommandWord) : State :=
  (if s.engine0.cbState = .none then
    { s with engine0 := { s.engine0 with mstate := .idle },
             engine1 := { s.engine1 with mstate := .idle, cbState := .none } }
  else s).offer (.command .i0 w)

/-- A key is held by `ack_matters` and `SSTATUS` of an instance whose events can be delivered, and the next offer is its
bus event (R110, R296). -/
def State.placeKey (s : State) (k : Key) : State :=
  let e := s.engine0
  let control := if eventsEnabled e.port.sctrla then e.port.sctrla else targetControlOn
  ({ s with engine0 := { e with
      cbState := .none, ackMatters := k.ackMatters,
      port := { e.port with sstatus := k.status, sctrla := control } } } : State).offer (.event .i0)

/-- Instance 0 in the middle of a transaction with the given sample waiting, its Master Engine step the next offer. -/
def State.placeEngineStep (s : State) (sample : Byte) (f : Engine → Engine) : State :=
  let e := f s.engine0
  ({ s with engine0 := { e with cbState := .none, port := { e.port with mstatus := sample } },
            engine1 := { s.engine1 with cbState := .none } } : State).offer (.engine .i0)

/-- A master command code is issued by a Master Engine step (R122 to R125): M_ACK_RECV by a read that wants one byte
more, M_STOP by a stopped write with nothing left to send, M_NACK_HOLD and M_NACK_STOP by a read of no bytes. No rule
issues M_REPSTART (R126), so its word is stored nowhere. -/
def State.placeMasterCode (s : State) (c : Byte) : State :=
  if c = 0x02 then s.placeEngineStep 0xA2 fun e =>
    { e with mstate := .data, mKind := .read, mCount := 2, mN := 0, masterRx := e.masterRx.discard }
  else if c = 0x03 then s.placeEngineStep 0x62 fun e =>
    { e with mstate := .data, mKind := .write, mSendStop := true, masterTx := e.masterTx.discard }
  else if c = 0x04 then s.placeEngineStep 0xA2 fun e =>
    { e with mstate := .addrWait, mKind := .read, mCount := 0, mSendStop := false }
  else if c = 0x07 then s.placeEngineStep 0xA2 fun e =>
    { e with mstate := .addrWait, mKind := .read, mCount := 0, mSendStop := true }
  else s

/-- A target command code is issued by a dispatcher branch (R127 to R129): T_WAIT_START by T_NACK, T_ACK_RESPONSE by
T_ADDR_W, T_NACK_WAIT_START by T_ILLEGAL. -/
def State.placeTargetCode (s : State) (c : Byte) : State :=
  if c = 0x02 then s.placeKey 0x192
  else if c = 0x03 then s.placeKey 0x041
  else if c = 0x06 then s.placeKey 0x000
  else s

/-- Places an encoded instruction where instance 0 fetches its next one. -/
def State.place (s : State) : Encoded → State
  | .command w => s.placeCommand w
  | .key k => s.placeKey k
  | .masterCode c => s.placeMasterCode c
  | .targetCode c => s.placeTargetCode c

end Sys2Proof.Machine
end

