-- ==== Sys2Proof/Machine/Step.lean ====
section
/-! DEFINITION. One step of the machine, and where a step fetches its next instruction. -/

namespace Sys2Proof.Machine

/-- One step (R77): the next offer of the environment, and the instruction it makes the machine run. -/
def step (s : State) : Host.Outcome State Fault Refusal :=
  match s.fetch with
  | .run i t => exec i t
  | .done t => .next t

/-- `s` with the instruction of a table word stored where `step` fetches its next one, on instance 0 (log entry 18).
A command code is run where the engine's own rules issue it (log entry 16). A word of no space of the opcode table is
stored nowhere. -/
def State.withFetchWord (s : State) (nbits w : Nat) : State :=
  match tableWord nbits w with
  | some e => s.place e
  | none => s

end Sys2Proof.Machine
end

