-- ==== Sys2Proof/Safety.lean ====
section
/-! DEFINITION. The terms claims are made in: frames, quiescence and the end of a run (R361), refusals of a run (R298),
peripheral relations (R12), and the invariants of the machine. -/

namespace Sys2Proof.Machine

/-! ## Frames -/

/-- The instance the current step does not address. -/
def State.otherEngine (s : State) : Engine := s.engineOf s.sel.other

/-- Everything but the selected instance, the trace and the draw counter is the same: parameters, the other instance,
the selection, the schedule. -/
def State.sameOutside (s t : State) : Prop :=
  t.params = s.params ∧ t.sel = s.sel ∧ t.schedule = s.schedule ∧ t.otherEngine = s.otherEngine

/-- The same, and no free value was drawn. -/
def State.framed (s t : State) : Prop := s.sameOutside t ∧ t.draws = s.draws

/-- Every cell of space RB of every instance reads as before (R70). -/
def State.sameCells (s t : State) : Prop := ∀ i b a, t.readCell i b a = s.readCell i b a

/-- Every cell reads as before, except cell `a` of buffer `b` of the selected instance. -/
def State.sameCellsBut (s t : State) (b : BufName) (a : Nat) : Prop :=
  ∀ i b' a', ¬(i = s.sel ∧ b' = b.resolve s.params.simultaneous ∧ a' = a) → t.readCell i b' a' = s.readCell i b' a'

/-- What was newly observed is exactly `new`, each observation belonging to the selected instance. -/
def State.observed (s t : State) (new : List Obs) : Prop := t.trace = s.trace ++ new.map (fun o => (s.sel, o))

/-- The step wrote the byte `c` to `MCMD` and did nothing else. -/
def State.issuedMaster (s t : State) (c : Byte) : Prop :=
  s.framed t ∧ s.sameCells t ∧ t.eng = { s.eng with port := { s.eng.port with mcmd := c } } ∧
  s.observed t [.portWrite .mcmd c]

/-- The step wrote the byte `c` to `SCMD` and did nothing else. -/
def State.issuedTarget (s t : State) (c : Byte) : Prop :=
  s.framed t ∧ s.sameCells t ∧ t.eng = { s.eng with port := { s.eng.port with scmd := c } } ∧
  s.observed t [.portWrite .scmd c]

/-- The command was refused: nothing changed but that the refusal is on record (R298). -/
def State.refusedWith (s t : State) (r : RefuseReason) : Prop :=
  s.framed t ∧ s.sameCells t ∧ t.eng = s.eng ∧ s.observed t [.refused r]

/-- The instance an offer addresses. -/
def Stimulus.inst : Stimulus → InstId
  | .command i _ => i
  | .engine i => i
  | .event i => i
  | .periph i _ => i

/-- A host command: an instruction of the command port (R101). -/
def isHostCommand (i : Instr) : Bool :=
  match encode i with
  | .command _ => true
  | _ => false

/-- A dispatcher branch: an instruction selected by a key (R110). -/
def isBranch (i : Instr) : Bool :=
  match encode i with
  | .key _ => true
  | _ => false

/-- The commands admitted in both contexts (R275). -/
def inBothContexts : Instr → Bool
  | .write _ => true
  | .available => true
  | .read => true
  | .peek => true
  | .getIncoming => true
  | _ => false

/-! ## Runs (R298, R361) -/

/-- An observation is a response word. -/
def Obs.isResponse : Obs → Bool
  | .respond _ => true
  | _ => false

/-- An observation is a notification. -/
def Obs.isNotification : Obs → Bool
  | .notifyReceive _ _ => true
  | .notifyRequest _ => true
  | _ => false

/-- The byte an observation shows the engine writing to `MDATA`. -/
def Obs.sentByte : Obs → Option Byte
  | .portWrite .mdata v => some v
  | _ => none

/-- An observation is a refusal. -/
def Obs.isRefusal : Obs → Bool
  | .refused _ => true
  | _ => false

/-- No command was refused so far. The trace never shrinks, so a refusal is kept "for the whole run" (R298). -/
def State.refusalFree (s : State) : Bool := s.trace.all (fun o => !o.2.isRefusal)

/-- "a run is quiescent when mstate = M_IDLE and cb_state = CB_NONE" (R361), on every existing instance. -/
def State.quiescent (s : State) : Bool := s.foregroundIdle && s.foregroundFree

/-- What R361 lets be observed of an instance at a quiescent state: the session registers, the indices of every buffer
and its unread bytes in order. -/
structure Snapshot where
  masterEnabled : Bool
  targetEnabled : Bool
  targetAddress : Byte
  incomingAddress : Byte
  ackMatters : Bool
  onReceive : Handle
  onRequest : Handle
  txnAddress : Byte
  buffers : List (Nat × Nat × List Byte)
  deriving DecidableEq, Repr

/-- The indices and unread bytes of a buffer. -/
def RingBuffer.observe (n : Nat) (rb : RingBuffer) : Nat × Nat × List Byte := (rb.head, rb.tail, rb.unread n)

/-- The snapshot of an instance. -/
def Engine.snapshot (p : Params) (e : Engine) : Snapshot where
  masterEnabled := e.masterEnabled
  targetEnabled := e.targetEnabled
  targetAddress := e.targetAddress
  incomingAddress := e.incomingAddress
  ackMatters := e.ackMatters
  onReceive := e.onReceive
  onRequest := e.onRequest
  txnAddress := e.txnAddress
  buffers := [.masterTx, .masterRx, .targetTx, .targetRx].map
    (fun b => (e.buffer (BufName.resolve p.simultaneous b)).observe p.bufN)

/-- A peripheral relation `PeriphStep` over the port registers, the parameter of R12. -/
abbrev PeriphStep := Port → Port → Prop

/-- The next offer, if it is a peripheral step, is one the relation allows. A claim about one peripheral takes this of
every state of the run as a premise; a claim without it is about every peripheral (R12; log entry 2). -/
def State.obeys (relation : PeriphStep) (s : State) : Prop :=
  ∀ i writes rest, s.schedule = .periph i writes :: rest →
    relation (s.engineOf i).port ((s.engineOf i).port.periphWrites writes)

/-- When an instance's callback has just been called, the commands offered to that instance begin with those the user
code of the handle gives for what it can see, up to and including its CB_RETURN. A claim about the spec's runs, whose
callbacks are functions and return (R35, R275), takes this of every state of the run as a premise; a claim without it
is about every sequence of callback commands (U9; log entry 21). -/
def State.calls (code : UserCode) (s : State) : Prop :=
  ∀ i handle argument, s.called i = some (handle, argument) →
    callbackWords (code handle (s.visible i argument)) <+: commandsFor i s.schedule

/-- `n` Master Engine steps of the selected instance in a row, no other agent moving between them. -/
def State.engineSteps (s : State) : Nat → State
  | 0 => s
  | n + 1 => s.engineStep.engineSteps n

/-! ## Sequences of pushes and pops (R152) -/

/-- One operation on a ring buffer. -/
inductive RingOp where
  | push (b : Byte)
  | pop
  deriving DecidableEq, Repr

/-- A sequence of operations: the buffer after it, the number of successful pushes and of successful pops. -/
def RingBuffer.tally (n : Nat) (rb : RingBuffer) : List RingOp → RingBuffer × Nat × Nat
  | [] => (rb, 0, 0)
  | .push b :: rest =>
    let r := rb.tryPush n b
    let t := r.2.tally n rest
    (t.1, t.2.1 + (if r.1 then 1 else 0), t.2.2)
  | .pop :: rest =>
    let r := rb.pop n
    let t := r.2.tally n rest
    (t.1, t.2.1, t.2.2 + (if r.1.isSome then 1 else 0))

/-- The results of `k` pops in a row. -/
def RingBuffer.popMany (n : Nat) (rb : RingBuffer) : Nat → List (Option Byte)
  | 0 => []
  | k + 1 => (rb.pop n).1 :: (rb.pop n).2.popMany n k

/-! ## Invariants -/

/-- The four buffers have indices in 0..N-1 and storage in canonical form (R28); with shared buffers the separate
target buffers are never used (R27). -/
def Engine.storageWf (p : Params) (e : Engine) : Prop :=
  e.masterTx.wf p.bufN = true ∧ e.masterRx.wf p.bufN = true ∧ e.targetTx.wf p.bufN = true ∧ e.targetRx.wf p.bufN = true ∧
  (p.simultaneous = false → e.targetTx = RingBuffer.reset ∧ e.targetRx = RingBuffer.reset) ∧
  e.txnAddress.getLsbD 0 = false

/-- The storage invariant of the machine: the parameters in range (R6), every buffer well formed (R28), bit 0 of
`txn_address` 0 (R26), and a selected instance that exists. -/
def State.storageInv (s : State) : Prop :=
  s.params.wf = true ∧ s.hasInst s.sel = true ∧ ∀ i, (s.engineOf i).storageWf s.params

/-- The values the master command register can hold: none yet, or a code of R120 (R134). -/
def isMasterCode (c : Byte) : Bool := c == 0 || (decodeMasterCode c).isSome

/-- The values the target command register can hold: none yet, or a code of R121 (R134). -/
def isTargetCode (c : Byte) : Bool := c == 0 || (decodeTargetCode c).isSome

/-- The roles of an instance and its control registers agree (R21, R42, R48, R51, R240 to R245), a callback runs only
while the target role is enabled and its handle registered (R214, R275, R296), and the command registers hold codes
(R134). -/
def Engine.roleWf (p : Params) (e : Engine) : Prop :=
  (p.simultaneous = false → ¬(e.masterEnabled = true ∧ e.targetEnabled = true)) ∧
  (e.port.mctrla = 0x00 ∨ e.port.mctrla = 0x01) ∧
  (e.masterEnabled = true → e.port.mctrla = 0x01) ∧
  e.port.sctrla = (if e.targetEnabled then 0xE1 else 0x00) ∧
  e.port.saddr = (if e.targetEnabled then e.targetAddress else 0x00) ∧
  (e.cbState ≠ .none → e.targetEnabled = true) ∧
  (e.cbState = .rxStop ∨ e.cbState = .rxAddr → e.onReceive ≠ 0) ∧
  (e.cbState = .req → e.onRequest ≠ 0) ∧
  isMasterCode e.port.mcmd = true ∧ isTargetCode e.port.scmd = true

/-- The role invariant of the machine. -/
def State.roleInv (s : State) : Prop := ∀ i, (s.engineOf i).roleWf s.params

/-- The transaction registers of an instance (R30): a read that is in its data phase has bytes left to read (R192);
with four buffers, a read in progress has stored exactly the `m_n` bytes it counted (R189, R265) and a write in
progress never counts past N-1 (R186). -/
def Engine.transactionWf (p : Params) (e : Engine) : Prop :=
  ((e.mstate = .data ∨ e.mstate = .dataWait) ∧ e.mKind = .read → e.mN < e.mCount) ∧
  (p.simultaneous = true → e.mstate ≠ .idle → e.mKind = .read → e.masterRx.available p.bufN = e.mN.toNat) ∧
  (p.simultaneous = true → e.mstate ≠ .idle → e.mKind = .write →
    e.mN.toNat + e.masterTx.available p.bufN ≤ p.bufN - 1) ∧
  ((e.mstate = .start ∨ e.mstate = .waitBus ∨ e.mstate = .addrWait) → e.mN = 0)

/-- The transaction invariant: the storage invariant, the registers of every instance consistent, and at most one
blocking command in progress, since there is a single foreground thread (R78, R318). -/
def State.transactionInv (s : State) : Prop :=
  s.storageInv ∧ (∀ i, (s.engineOf i).transactionWf s.params) ∧
  ¬(s.engine0.mstate ≠ .idle ∧ s.hasInst .i1 = true ∧ s.engine1.mstate ≠ .idle)

end Sys2Proof.Machine
end

