-- ==== Sys2Proof/Certificates/Slice0/Obligations.lean ====
section
/-! DEFINITION. The statements for the provers. Each docstring names the rule of spec/ it comes from. -/

open Sys2Proof Sys2Proof.Machine

/-! ## Encoding -/

/-- Decoding an encoded well-formed instruction gives it back, for every instruction and every operand
(30_encoding.md sections 1 to 3). -/
def Obligations.DecodeOfEncodeIsIdentity : Prop :=
  ∀ i : Instr, i.wf = true → decode (encode i) = some i

/-- Every word that decodes is the encoding of what it decodes to, and what it decodes to is well formed: a word has
one meaning and a reserved bit set has none (30_encoding.md sections 1 to 4). -/
def Obligations.EncodeOfDecodeIsIdentity : Prop :=
  ∀ (e : Encoded) (i : Instr), decode e = some i → i.wf = true ∧ encode i = e

/-- R110: the (mask, match) pairs select the branch that the dispatcher decodes, for all 512 keys. -/
def Obligations.KeyPairsSelectTheBranch : Prop :=
  ∀ k : Key,
    (decodeKey k = .tBuserr k ↔ k &&& 0x004 = 0x004 ∨ k &&& 0x008 = 0x008) ∧
    (decodeKey k = .tStop k ↔ k &&& 0x0CD = 0x040) ∧
    (decodeKey k = .tAddrW k ↔ k &&& 0x0CF = 0x041) ∧
    (decodeKey k = .tAddrR k ↔ k &&& 0x0CF = 0x043) ∧
    (decodeKey k = .tDataRx k ↔ k &&& 0x0CE = 0x080) ∧
    (decodeKey k = .tDataReq k ↔ k &&& 0x1CE = 0x082 ∨ k &&& 0x1DE = 0x182) ∧
    (decodeKey k = .tNack k ↔ k &&& 0x1DE = 0x192) ∧
    (decodeKey k = .tIllegal k ↔ k &&& 0x0CC = 0x000 ∨ k &&& 0x0CC = 0x0C0) ∧
    ∀ (a : Bool) (st : Byte), k = BitVec.ofBool a ++ st → k.status = st ∧ k.ackMatters = a

/-- Words written out from 30_encoding.md and 95_test_vectors.md section 5 decode to the instructions they stand for. -/
def Obligations.WrittenOutWordsDecode : Prop :=
  decodeTableWord 40 0x0400010550 = some (.request 0x50 5 true) ∧
  decodeTableWord 40 0x110000FEC2 = some (.enableTarget 0x42 true 0xFE) ∧
  decodeTableWord 40 0x20000186A0 = some (.setClock 100000) ∧
  decodeTableWord 40 0x2800000302 = some (.selectPins 2 3) ∧
  decodeTableWord 40 0x3000000000 = some .cbReturn ∧
  decodeTableWord 40 0x0400020550 = none ∧
  decodeTableWord 40 0x0900000000 = none ∧
  decodeTableWord 16 0x1B2 = some (.tNack 0x1B2) ∧
  decodeTableWord 16 0x0B2 = some (.tDataReq 0x0B2) ∧
  decodeTableWord 8 0x07 = some .mNackStop ∧
  decodeTableWord 8 0x06 = some .tNackWaitStart

/-! ## Reset -/

/-- R60: the state of every instance after reset, for every parameter set. The registers the rule calls unspecified are
not mentioned. The first clause is the model's choice, not the rule's: State.reset takes the reference parameters
(log entry 1). -/
def Obligations.ResetStateOfEveryInstance : Prop :=
  State.reset = State.resetWith Params.reference Port.zero Port.zero ∧
  ∀ (p : Params) (i : InstId),
    let e := (State.resetWith p Port.zero Port.zero).engineOf i
    e.masterEnabled = false ∧ e.targetEnabled = false ∧ e.targetAddress = 0 ∧ e.ackMatters = false ∧
    e.onReceive = 0 ∧ e.onRequest = 0 ∧ e.txnAddress = 0 ∧
    (∀ b : BufName, (e.buffer b).head = 0 ∧ (e.buffer b).tail = 0) ∧
    e.mstate = .idle ∧ e.cbState = .none ∧ e.lastFault = .none ∧
    (∀ r : PortReg, e.port.get r = 0) ∧ busState e.port.mstatus = .unknown ∧
    (State.resetWith p Port.zero Port.zero).deliverable i = false

/-! ## The step -/

/-- Nothing is fatal (R321): every step, in every state whatever the environment offers, answers a next state. -/
def Obligations.EveryStepAnswersANextState : Prop :=
  ∀ s : State, ∃ t, step s = .next t

/-- A step runs the decoded instruction: an admitted command word, or the key of a delivered bus event after the one read
of SSTATUS, in the state with the offer taken and its instance selected; a Master Engine offer runs one engine step. A
command code is no step of its own: the last two clauses say how engine steps and branches run the codes as
instructions, which is the model's reading (log entry 16). -/
def Obligations.StepRunsTheDecodedInstruction : Prop :=
  ∀ (s : State) (i : InstId) (rest : List Stimulus),
    let t : State := { s with schedule := rest, sel := i }
    (∀ w ins, s.schedule = .command i w :: rest → s.admits (.command i w) = true → decode (.command w) = some ins →
      step s = exec ins t) ∧
    (s.schedule = .event i :: rest → s.admits (.event i) = true →
      ∃ k : Key, k = BitVec.ofBool t.eng.ackMatters ++ t.eng.port.sstatus ∧
        step s = exec (decodeKey k) { t with trace := t.trace ++ [(i, .portRead .sstatus t.eng.port.sstatus)] }) ∧
    (s.schedule = .engine i :: rest → s.admits (.engine i) = true → step s = .next t.engineStep) ∧
    (let st := t.eng.port.mstatus
     let sampled := t.noteRead .mstatus
     (t.eng.mstate = .data → t.eng.mKind = .write → phaseAborted st = false → mRxNack st = false →
       t.eng.masterTx.isEmpty = true → t.eng.mSendStop = true →
       ∃ v, exec .mStop sampled = .next v ∧ t.engineStep = v.finish (byteResponse t.eng.mN)) ∧
     (t.eng.mstate = .addrWait → t.eng.mKind = .read → phaseDone st = true → mRxNack st = false → t.eng.mCount = 0 →
       ∃ v, exec (if t.eng.mSendStop then .mNackStop else .mNackHold) sampled = .next v ∧
         t.engineStep = v.finish (byteResponse t.eng.mN)) ∧
     (t.eng.mstate = .data → t.eng.mKind = .read → phaseAborted st = false →
       t.eng.masterRx.isFull t.params.bufN = false → t.eng.mN + 1 < t.eng.mCount →
       ∃ u v, u.eng.mN = t.eng.mN + 1 ∧ exec .mAckRecv u = .next v ∧ t.engineStep = v.goto .dataWait)) ∧
    (∀ k, exec (.tAddrW k) t = exec .tAckResponse t.latchIncoming ∧ exec (.tIllegal k) t = exec .tNackWaitStart t ∧
      ((t.buf .targetTx).isEmpty = true →
        exec (.tDataReq k) t = exec .tWaitStart (t.setEng { t.eng with ackMatters := true })))

/-- R78 and R296: when an offer is taken, and that one not taken changes nothing (the model's reading, log entry 3). The
conditions on the foreground are given for one instance; log entry 14 says how they extend to two. -/
def Obligations.OffersAreTakenWhenAdmitted : Prop :=
  ∀ (s : State) (i : InstId), s.hasInst i = true →
    let e := s.engineOf i
    (s.admits (.event i) = true ↔
      e.cbState = .none ∧ e.port.sctrla.getLsbD 0 = true ∧ e.port.sctrla.extractLsb' 5 3 ≠ 0) ∧
    (s.params.numInstances = 1 → (∀ w, s.admits (.command i w) = true ↔ e.cbState ≠ .none ∨ e.mstate = .idle) ∧
      (s.admits (.engine i) = true ↔ e.cbState = .none ∧ e.mstate ≠ .idle)) ∧
    (∀ x rest, s.schedule = x :: rest → s.admits x = false → step s = .next { s with schedule := rest })

/-- R132 and R298: a word with an unknown opcode or a reserved bit, and a command in a context that does not admit it,
are refused with their names; a refused command changes no state, not even `last_fault`. A word with a reserved bit set
whose command the context does not admit either earns both names; that it is refused as ReservedBits is the model's
choice (log entry 23). -/
def Obligations.RefusedCommandsChangeNothing : Prop :=
  (∀ (s : State) (i : InstId) (w : CommandWord) (rest : List Stimulus),
    s.schedule = .command i w :: rest → s.admits (.command i w) = true →
    (w.extractLsb' 32 8 ∉ ([0x01, 0x02, 0x03, 0x04, 0x05, 0x06, 0x07, 0x08, 0x10, 0x11, 0x12, 0x13, 0x20, 0x21, 0x22,
        0x23, 0x24, 0x28, 0x29, 0x2A, 0x30] : List Byte) →
      ∃ t, step s = .next t ∧ State.refusedWith { s with schedule := rest, sel := i } t .unknownOpcode) ∧
    (∀ r ∈ commandTable, w.extractLsb' 32 8 = r.opcode → w.extractLsb' 0 32 &&& r.format.reserved ≠ 0 →
      ∃ t, step s = .next t ∧ State.refusedWith { s with schedule := rest, sel := i } t .reservedBits)) ∧
  (∀ (s : State) (i : Instr), isHostCommand i = true → i ≠ .cbReturn → inBothContexts i = false →
    s.eng.cbState ≠ .none → ∃ t, exec i s = .next t ∧ s.refusedWith t .wrongContext) ∧
  (∀ s : State, s.eng.cbState = .none → ∃ t, exec .cbReturn s = .next t ∧ s.refusedWith t .wrongContext)

/-- R78: while a callback runs on an instance, the foreground takes no step there (no host command, no Master Engine
step) on any instance that is not itself in a callback, and no bus event of that instance is delivered. That such an
offer is dropped and changes nothing but the schedule is the model's choice (log entry 3); across instances the
statement rests on log entry 14. -/
def Obligations.CallbackHoldsForegroundAndEvents : Prop :=
  ∀ (s : State) (i j : InstId) (x : Stimulus) (rest : List Stimulus),
    s.hasInst i = true → (s.engineOf i).cbState ≠ .none → s.schedule = x :: rest →
    (x = .event i ∨ x = .engine j ∨ (∃ w, x = .command j w ∧ (s.engineOf j).cbState = .none)) →
    step s = .next { s with schedule := rest }

/-! ## Session control -/

/-- R240: ENABLE_MASTER. -/
def Obligations.EnableMasterGuardAndEffect : Prop :=
  ∀ s : State, s.eng.cbState = .none →
    ∃ t, exec .enableMaster s = .next t ∧ s.framed t ∧ s.sameCells t ∧
      if (if s.params.simultaneous then s.eng.masterEnabled = true
          else s.eng.masterEnabled = true ∨ s.eng.targetEnabled = true) then
        t.eng = { s.eng with lastFault := .roleAlreadyActive } ∧ s.observed t [.respond 0]
      else
        t.eng = { s.eng with masterEnabled := true,
                             port := { s.eng.port with mctrla := 0x01, mstatus := t.eng.port.mstatus } } ∧
        busState t.eng.port.mstatus = .idle ∧
        s.observed t [.pinsReset, .portWrite .mctrla 0x01, .portWrite .mstatus 0x01, .respond 0]

/-- R241: ENABLE_TARGET. -/
def Obligations.EnableTargetGuardAndEffect : Prop :=
  ∀ (s : State) (address : Address7) (broadcast : Bool) (mask : Byte), s.eng.cbState = .none →
    ∃ t, exec (.enableTarget address broadcast mask) s = .next t ∧ s.framed t ∧ s.sameCells t ∧
      let own : Byte := (address.setWidth 8 <<< 1) ||| (if broadcast then 1 else 0)
      let m := s.eng.port.mctrla
      if (if s.params.simultaneous then s.eng.targetEnabled = true
          else s.eng.masterEnabled = true ∨ s.eng.targetEnabled = true) then
        t.eng = { s.eng with lastFault := .roleAlreadyActive } ∧ s.observed t [.respond 0]
      else
        t.eng = { s.eng with targetEnabled := true, targetAddress := own,
                             port := { s.eng.port with saddr := own, saddrmask := mask, sctrla := 0xE1,
                                                       mctrla := m ||| 0x01 } } ∧
        s.observed t [.portWrite .saddr own, .portWrite .saddrmask mask, .portWrite .sctrla 0xE1,
          .portRead .mctrla m, .portWrite .mctrla (m ||| 0x01), .respond 0]

/-- R242: DISABLE_MASTER, with no guard. -/
def Obligations.DisableMasterEffect : Prop :=
  ∀ s : State, s.eng.cbState = .none →
    ∃ t, exec .disableMaster s = .next t ∧ s.framed t ∧ s.sameCells t ∧
      t.eng = { s.eng with masterEnabled := false, port := { s.eng.port with mctrla := 0x00 },
                           masterTx := { s.eng.masterTx with head := 0, tail := 0 },
                           masterRx := { s.eng.masterRx with head := 0, tail := 0 } } ∧
      s.observed t [.portWrite .mctrla 0x00, .respond 0]

/-- R243: DISABLE_TARGET, with no guard; with shared buffers the target buffers are the master's (R27). After it no bus
event can be delivered (R296). -/
def Obligations.DisableTargetEffect : Prop :=
  ∀ s : State, s.eng.cbState = .none →
    ∃ t, exec .disableTarget s = .next t ∧ s.framed t ∧ s.sameCells t ∧
      (let e : Engine := { s.eng with targetEnabled := false,
                                      port := { s.eng.port with sctrla := 0x00, saddr := 0x00, saddrmask := 0x00 } }
       t.eng = if s.params.simultaneous then
           { e with targetTx := { s.eng.targetTx with head := 0, tail := 0 },
                    targetRx := { s.eng.targetRx with head := 0, tail := 0 } }
         else
           { e with masterTx := { s.eng.masterTx with head := 0, tail := 0 },
                    masterRx := { s.eng.masterRx with head := 0, tail := 0 } }) ∧
      s.observed t [.portWrite .sctrla 0x00, .portWrite .saddr 0x00, .portWrite .saddrmask 0x00, .respond 0] ∧
      t.deliverable s.sel = false

/-- R244: FLUSH. -/
def Obligations.FlushEffect : Prop :=
  ∀ s : State, s.eng.cbState = .none →
    ∃ t, exec .flush s = .next t ∧ s.framed t ∧ s.sameCells t ∧
      (let m := s.eng.port.mctrla
       let c := s.eng.port.sctrla
       let on := m.getLsbD 0
       let e : Engine := { s.eng with masterTx := { s.eng.masterTx with head := 0, tail := 0 },
                                      masterRx := { s.eng.masterRx with head := 0, tail := 0 },
                                      port := { s.eng.port with mstatus := t.eng.port.mstatus } }
       (t.eng = if s.params.simultaneous then
           { e with targetTx := { s.eng.targetTx with head := 0, tail := 0 },
                    targetRx := { s.eng.targetRx with head := 0, tail := 0 } }
         else e) ∧
       (if on then busState t.eng.port.mstatus = .idle else t.eng.port.mstatus = s.eng.port.mstatus) ∧
       s.observed t ([.portRead .mctrla m, .portWrite .mctrla 0x00, .portWrite .mctrla m,
           .portRead .sctrla c, .portWrite .sctrla 0x00, .portWrite .sctrla c] ++
         (if on then [.portWrite .mstatus 0x01] else []) ++ [.respond 0]))

/-! ## The byte stream -/

/-- R260: BEGIN. -/
def Obligations.BeginStoresAddressAndEmptiesMasterTx : Prop :=
  ∀ (s : State) (address : Address7), s.eng.cbState = .none →
    ∃ t, exec (.beginTransmission address) s = .next t ∧ s.framed t ∧ s.sameCells t ∧
      t.eng = { s.eng with txnAddress := address.setWidth 8 <<< 1,
                           masterTx := { s.eng.masterTx with head := 0, tail := 0 } } ∧
      s.observed t [.respond 0]

/-- R261: WRITE, in both contexts (R262): stored and 1, or on a full buffer nothing stored and 0. -/
def Obligations.WriteStoresOneByteOrNone : Prop :=
  ∀ (s : State) (byte : Byte), s.storageInv →
    ∃ t, exec (.write byte) s = .next t ∧ s.framed t ∧
      let name : BufName := if s.eng.cbState = .none then .masterTx else .targetTx
      let rb := s.buf name
      let next := (rb.head + 1) % s.params.bufN
      if next = rb.tail then
        t.eng = { s.eng with lastFault := .localBufferFull } ∧ s.observed t [.respond 0] ∧ s.sameCells t
      else
        t.eng = s.eng.setBuffer (name.resolve s.params.simultaneous) (t.buf name) ∧
        (t.buf name).head = next ∧ (t.buf name).tail = rb.tail ∧
        (t.buf name).storage.read rb.head = byte ∧ s.sameCellsBut t name rb.head ∧
        s.observed t [.respond 1]

/-- R263 and R265: END and REQUEST start a transaction and respond later, when the Master Engine returns to M_IDLE. -/
def Obligations.EndAndRequestStartATransaction : Prop :=
  ∀ (s : State) (sendStop : Bool) (address : Address7) (count : Byte), s.eng.cbState = .none →
    (∃ t, exec (.endTransmission sendStop) s = .next t ∧ s.framed t ∧ s.sameCells t ∧ s.observed t [] ∧
      t.eng = { s.eng with mKind := .write, mSendStop := sendStop, mN := 0, mstate := .start }) ∧
    (∃ t, exec (.request address count sendStop) s = .next t ∧ s.framed t ∧ s.sameCells t ∧ s.observed t [] ∧
      t.eng = { s.eng with txnAddress := address.setWidth 8 <<< 1,
                           masterRx := { s.eng.masterRx with head := 0, tail := 0 },
                           mKind := .read, mCount := count, mSendStop := sendStop, mN := 0, mstate := .start })

/-- R266 and R268: AVAILABLE and PEEK respond and change nothing, in both contexts. -/
def Obligations.AvailableAndPeekOnlyRespond : Prop :=
  ∀ s : State,
    let rb := s.buf (if s.eng.cbState = .none then .masterRx else .targetRx)
    (∃ t, exec .available s = .next t ∧ s.framed t ∧ s.sameCells t ∧ t.eng = s.eng ∧
      s.observed t [.respond
        ((BitVec.ofNat 8 ((s.params.bufN + rb.head - rb.tail) % s.params.bufN)).setWidth 16)]) ∧
    (∃ t, exec .peek s = .next t ∧ s.framed t ∧ s.sameCells t ∧ t.eng = s.eng ∧
      s.observed t [.respond (if rb.head = rb.tail then 0xFFFF else (rb.storage.read rb.tail).setWidth 16)])

/-- R267: READ takes the oldest byte, or answers 0xFFFF and changes nothing, in both contexts. -/
def Obligations.ReadTakesTheOldestByte : Prop :=
  ∀ s : State,
    let name : BufName := if s.eng.cbState = .none then .masterRx else .targetRx
    let rb := s.buf name
    ∃ t, exec .read s = .next t ∧ s.framed t ∧ s.sameCells t ∧
      if rb.head = rb.tail then t.eng = s.eng ∧ s.observed t [.respond 0xFFFF]
      else
        t.eng = s.eng.setBuffer (name.resolve s.params.simultaneous)
          { rb with tail := (rb.tail + 1) % s.params.bufN } ∧
        s.observed t [.respond ((rb.storage.read rb.tail).setWidth 16)]

/-! ## Configuration and pins -/

/-- R166 and R270: SET_CLOCK. -/
def Obligations.SetClockReprogramsOnlyOnChange : Prop :=
  ∀ (s : State) (f : Hertz), s.eng.cbState = .none →
    ∃ t, exec (.setClock f) s = .next t ∧ s.framed t ∧ s.sameCells t ∧
      let p := s.eng.port
      let new := calcBaud s.params f
      let c' := if 800000 < f.toNat then p.ctrla ||| 0x02 else p.ctrla &&& 0xFD
      let on := p.mctrla.getLsbD 0
      if f = 0 then s.refusedWith t .zeroFrequency
      else if new = p.mbaud then t.eng = s.eng ∧ s.observed t [.portRead .mbaud p.mbaud, .respond 0]
      else
        t.eng = { s.eng with port := { p with mctrla := if on then p.mctrla else 0x00, mbaud := new, ctrla := c',
                                              mstatus := t.eng.port.mstatus } } ∧
        (if on then busState t.eng.port.mstatus = .idle else t.eng.port.mstatus = p.mstatus) ∧
        s.observed t ([.portRead .mbaud p.mbaud, .portRead .mctrla p.mctrla, .portWrite .mctrla 0x00,
            .portWrite .mbaud new, .portRead .ctrla p.ctrla, .portWrite .ctrla c'] ++
          (if on then [.portWrite .mctrla p.mctrla, .portWrite .mstatus 0x01] else []) ++ [.respond 0])

/-- "calling set_clock twice with the same frequency performs the hardware reprogram only once" (41_baud.md R166,
95_test_vectors.md section 11). -/
def Obligations.SecondSetClockWritesNothing : Prop :=
  ∀ (s t : State) (f : Hertz), s.eng.cbState = .none → f ≠ 0 → exec (.setClock f) s = .next t →
    ∃ u, exec (.setClock f) t = .next u ∧ u.eng = t.eng ∧
      t.observed u [.portRead .mbaud (calcBaud s.params f), .respond 0]

/-- R271: GET_INCOMING responds the latched byte; before the first address branch any value (log entry 5 says how the
model holds that case). -/
def Obligations.GetIncomingRespondsLatchedByte : Prop :=
  ∀ s : State, ∃ t, exec .getIncoming s = .next t ∧ s.sameOutside t ∧ s.sameCells t ∧ t.eng = s.eng ∧
    if s.eng.incomingValid then s.observed t [.respond (s.eng.incomingAddress.setWidth 16)] ∧ t.draws = s.draws
    else ∃ v : Byte, s.observed t [.respond (v.setWidth 16)]

/-- R272 and R273: the last registration wins, and 0 unregisters. -/
def Obligations.RegistrationReplacesTheHandle : Prop :=
  ∀ (s : State) (handle : Handle), s.eng.cbState = .none →
    (∃ t, exec (.onReceive handle) s = .next t ∧ s.framed t ∧ s.sameCells t ∧
      t.eng = { s.eng with onReceive := handle } ∧ s.observed t [.respond 0]) ∧
    (∃ t, exec (.onRequest handle) s = .next t ∧ s.framed t ∧ s.sameCells t ∧
      t.eng = { s.eng with onRequest := handle } ∧ s.observed t [.respond 0])

/-- R161 to R164: CALC_BAUD responds the clamped formula of the band and the table, and refuses 0. -/
def Obligations.CalcBaudRespondsTheFormula : Prop :=
  ∀ (s : State) (f : Hertz), s.eng.cbState = .none →
    ∃ t, exec (.calcBaud f) s = .next t ∧ s.framed t ∧ s.sameCells t ∧ t.eng = s.eng ∧
      let p := s.params
      let b : Band := if f.toNat ≤ 100000 then .b0 else if f.toNat ≤ 400000 then .b1
        else if f.toNat ≤ 800000 then .b2 else .b3
      let q : Int := (p.cpuClockHz / (2 * f.toNat) : Nat)
      let r : Int := (p.cpuClockHz / 1000000 * p.riseNs.get b / 2000 : Nat)
      let offset : Int := if p.cpuClockHz > p.cpuThresholdHz then p.offsetB.get b else p.offsetA.get b
      if f = 0 then s.observed t [.refused .zeroFrequency]
      else ∃ v : Response, s.observed t [.respond v] ∧ (v.toNat : Int) = max 1 (min 255 (q - (5 + r) + offset))

/-- R165: the timing value lies in 1..255 and does not rise with the frequency within a band. -/
def Obligations.TimingIsBoundedAndMonotoneInABand : Prop :=
  ∀ (p : Params) (f g : Hertz), f ≠ 0 →
    1 ≤ (calcBaud p f).toNat ∧ (calcBaud p f).toNat ≤ 255 ∧
    (band f.toNat = band g.toNat → f.toNat ≤ g.toNat → (calcBaud p g).toNat ≤ (calcBaud p f).toNat) ∧
    (p.cpuClockHz = 16000000 → f = 100000 →
      ((calcBaud p f).toNat : Int) =
        max 1 (min 255 (80 - (5 + (16 * p.riseNs.get .b0 / 2000 : Nat)) +
          (if p.cpuClockHz > p.cpuThresholdHz then p.offsetB.get .b0 else p.offsetA.get .b0))))

/-- R274, R276, R277: the pin calls are forwarded, and no engine state is read or written. -/
def Obligations.PinCallsAreForwarded : Prop :=
  ∀ (s : State) (sda scl pinSet : Byte), s.eng.cbState = .none →
    (∃ t, exec (.selectPins sda scl) s = .next t ∧ s.sameOutside t ∧ s.sameCells t ∧ t.eng = s.eng ∧
      ∃ answer : Bool, s.observed t [.selectPins sda scl answer, .respond (if answer then 1 else 0)]) ∧
    (∃ t, exec (.swapPins pinSet) s = .next t ∧ s.framed t ∧ s.sameCells t ∧ t.eng = s.eng ∧
      s.observed t [.swapPinSet pinSet, .respond 0]) ∧
    (∃ t, exec .pullups s = .next t ∧ s.framed t ∧ s.sameCells t ∧ t.eng = s.eng ∧
      s.observed t [.enablePullups, .respond 0])

/-! ## The callback return -/

/-- R278: CB_RETURN resumes the suspended dispatcher run, in each of the three callback states, with no response; it is
refused when no callback is running. -/
def Obligations.CallbackReturnResumesTheRun : Prop :=
  ∀ s : State, (s.eng.cbState = .none → ∃ t, exec .cbReturn s = .next t ∧ s.refusedWith t .wrongContext) ∧
    (s.eng.cbState ≠ .none → ∃ t, exec .cbReturn s = .next t ∧ s.framed t ∧ s.sameCells t ∧
      let rx := s.buf .targetRx
      let discarded := s.eng.setBuffer (BufName.targetRx.resolve s.params.simultaneous) { rx with tail := rx.head }
      (s.eng.cbState = .rxStop → t.eng = { discarded with cbState := .none } ∧ s.observed t []) ∧
      (s.eng.cbState = .rxAddr → s.eng.onRequest ≠ 0 →
        t.eng = { discarded with cbState := .req } ∧ s.observed t [.notifyRequest s.eng.onRequest]) ∧
      (s.eng.cbState = .rxAddr → s.eng.onRequest = 0 →
        t.eng = { discarded with cbState := .none, port := { s.eng.port with scmd := 0x03 } } ∧
        s.observed t [.portWrite .scmd 0x03]) ∧
      (s.eng.cbState = .req →
        t.eng = { s.eng with cbState := .none, port := { s.eng.port with scmd := 0x03 } } ∧
        s.observed t [.portWrite .scmd 0x03]))

/-! ## The dispatcher's branches -/

/-- R215: T_BUSERR, and the status that selects it. -/
def Obligations.BusErrorResetsTargetBuffers : Prop :=
  ∀ (s : State) (k : Key), (decodeKey k = .tBuserr k ↔ k.getLsbD 2 = true ∨ k.getLsbD 3 = true) ∧
    ∃ t, exec (.tBuserr k) s = .next t ∧ s.framed t ∧ s.sameCells t ∧
      (t.eng = if s.params.simultaneous then
          { s.eng with lastFault := .busError, targetTx := { s.eng.targetTx with head := 0, tail := 0 },
                       targetRx := { s.eng.targetRx with head := 0, tail := 0 } }
        else
          { s.eng with lastFault := .busError, masterTx := { s.eng.masterTx with head := 0, tail := 0 },
                       masterRx := { s.eng.masterRx with head := 0, tail := 0 } }) ∧
      s.observed t [.portRead .sdata s.eng.port.sdata]

/-- R216 and R217: T_STOP clears the stop flag, then delivers the received bytes to a registered callback with their
count, or discards them. A run starts with no callback in progress. -/
def Obligations.StopDeliversReceivedBytes : Prop :=
  ∀ (s : State) (k : Key), s.eng.cbState = .none →
    (decodeKey k = .tStop k ↔ k.getLsbD 6 = true ∧ k.getLsbD 7 = false ∧ k.getLsbD 0 = false ∧
      k.getLsbD 2 = false ∧ k.getLsbD 3 = false) ∧
    ∃ t, exec (.tStop k) s = .next t ∧ s.framed t ∧ s.sameCells t ∧
      let rx := s.buf .targetRx
      let c := (s.params.bufN + rx.head - rx.tail) % s.params.bufN
      let port' : Port := { s.eng.port with sstatus := t.eng.port.sstatus }
      t.eng.port.sstatus.getLsbD 6 = false ∧
      if c ≠ 0 ∧ s.eng.onReceive ≠ 0 then
        t.eng = { s.eng with port := port', cbState := .rxStop } ∧
        s.observed t [.portWrite .sstatus 0x40, .notifyReceive s.eng.onReceive (BitVec.ofNat 8 c)]
      else
        t.eng = { s.eng.setBuffer (BufName.targetRx.resolve s.params.simultaneous) { rx with tail := rx.head } with
                  port := port' } ∧
        s.observed t [.portWrite .sstatus 0x40]

/-- R218: T_ADDR_W, and the status that selects it. -/
def Obligations.AddressForWriteIsLatchedAndAcknowledged : Prop :=
  ∀ (s : State) (k : Key),
    (decodeKey k = .tAddrW k ↔ k.getLsbD 6 = true ∧ k.getLsbD 7 = false ∧ k.getLsbD 0 = true ∧ k.getLsbD 1 = false ∧
      k.getLsbD 2 = false ∧ k.getLsbD 3 = false) ∧
    ∃ t, exec (.tAddrW k) s = .next t ∧ s.framed t ∧ s.sameCells t ∧
      t.eng = { s.eng with incomingAddress := s.eng.port.sdata, incomingValid := true,
                           port := { s.eng.port with scmd := 0x03 } } ∧
      s.observed t [.portRead .sdata s.eng.port.sdata, .portWrite .scmd 0x03]

/-- R219: T_ADDR_R latches the address, delivers received bytes, asks for the reply, and acknowledges last. -/
def Obligations.AddressForReadNotifiesThenAcknowledges : Prop :=
  ∀ (s : State) (k : Key), s.eng.cbState = .none →
    (decodeKey k = .tAddrR k ↔ k.getLsbD 6 = true ∧ k.getLsbD 7 = false ∧ k.getLsbD 0 = true ∧ k.getLsbD 1 = true ∧
      k.getLsbD 2 = false ∧ k.getLsbD 3 = false) ∧
    ∃ t, exec (.tAddrR k) s = .next t ∧ s.framed t ∧ s.sameCells t ∧
      let rx := s.buf .targetRx
      let c := (s.params.bufN + rx.head - rx.tail) % s.params.bufN
      let a := s.eng.port.sdata
      let latched : Engine := { s.eng with incomingAddress := a, incomingValid := true }
      let discarded := latched.setBuffer (BufName.targetRx.resolve s.params.simultaneous) { rx with tail := rx.head }
      if c ≠ 0 ∧ s.eng.onReceive ≠ 0 then
        t.eng = { latched with cbState := .rxAddr } ∧
        s.observed t [.portRead .sdata a, .notifyReceive s.eng.onReceive (BitVec.ofNat 8 c)]
      else if s.eng.onRequest ≠ 0 then
        t.eng = { discarded with cbState := .req } ∧
        s.observed t [.portRead .sdata a, .notifyRequest s.eng.onRequest]
      else
        t.eng = { discarded with port := { s.eng.port with scmd := 0x03 } } ∧
        s.observed t [.portRead .sdata a, .portWrite .scmd 0x03]

/-- R220: T_DATA_RX stores and acknowledges, or on a full buffer not-acknowledges and discards everything. -/
def Obligations.ReceivedByteIsStoredOrAllDiscarded : Prop :=
  ∀ (s : State) (k : Key), s.storageInv →
    (decodeKey k = .tDataRx k ↔ k.getLsbD 7 = true ∧ k.getLsbD 6 = false ∧ k.getLsbD 1 = false ∧
      k.getLsbD 2 = false ∧ k.getLsbD 3 = false) ∧
    ∃ t, exec (.tDataRx k) s = .next t ∧ s.framed t ∧
      let rx := s.buf .targetRx
      let next := (rx.head + 1) % s.params.bufN
      let name := BufName.targetRx.resolve s.params.simultaneous
      if next = rx.tail then
        t.eng = { s.eng.setBuffer name { rx with tail := rx.head } with
                  lastFault := .localBufferFull, port := { s.eng.port with scmd := 0x06 } } ∧
        s.observed t [.portWrite .scmd 0x06] ∧ s.sameCells t ∧ t.available .targetRx = 0
      else
        t.eng = { s.eng.setBuffer name (t.buf .targetRx) with port := { s.eng.port with scmd := 0x03 } } ∧
        (t.buf .targetRx).head = next ∧ (t.buf .targetRx).tail = rx.tail ∧
        (t.buf .targetRx).storage.read rx.head = s.eng.port.sdata ∧ s.sameCellsBut t .targetRx rx.head ∧
        s.observed t [.portRead .sdata s.eng.port.sdata, .portWrite .scmd 0x03]

/-- R221: T_DATA_REQ sends a staged byte, or ends the talker phase; `ack_matters` is set either way. -/
def Obligations.DataRequestSendsAStagedByte : Prop :=
  ∀ (s : State) (k : Key),
    (decodeKey k = .tDataReq k ↔ k.getLsbD 7 = true ∧ k.getLsbD 6 = false ∧ k.getLsbD 1 = true ∧
      k.getLsbD 2 = false ∧ k.getLsbD 3 = false ∧ ¬(k.getLsbD 8 = true ∧ k.getLsbD 4 = true)) ∧
    ∃ t, exec (.tDataReq k) s = .next t ∧ s.framed t ∧ s.sameCells t ∧
      let tx := s.buf .targetTx
      let b := tx.storage.read tx.tail
      if tx.head = tx.tail then
        t.eng = { s.eng with ackMatters := true, port := { s.eng.port with scmd := 0x02 } } ∧
        s.observed t [.portWrite .scmd 0x02]
      else
        t.eng = { s.eng.setBuffer (BufName.targetTx.resolve s.params.simultaneous)
                    { tx with tail := (tx.tail + 1) % s.params.bufN } with
                  ackMatters := true, port := { s.eng.port with sdata := b, scmd := 0x03 } } ∧
        s.observed t [.portWrite .sdata b, .portWrite .scmd 0x03]

/-- R222 and R223: T_NACK discards the unsent bytes and clears `ack_matters`; T_ILLEGAL only issues the safe abort. -/
def Obligations.NackAndIllegalEndTheTransaction : Prop :=
  ∀ (s : State) (k : Key),
    (decodeKey k = .tNack k ↔ k.getLsbD 7 = true ∧ k.getLsbD 6 = false ∧ k.getLsbD 1 = true ∧ k.getLsbD 4 = true ∧
      k.getLsbD 2 = false ∧ k.getLsbD 3 = false ∧ k.getLsbD 8 = true) ∧
    (decodeKey k = .tIllegal k ↔ k.getLsbD 2 = false ∧ k.getLsbD 3 = false ∧ k.getLsbD 7 = k.getLsbD 6) ∧
    (∃ t, exec (.tNack k) s = .next t ∧ s.framed t ∧ s.sameCells t ∧
      (let tx := s.buf .targetTx
       t.eng = { s.eng.setBuffer (BufName.targetTx.resolve s.params.simultaneous) { tx with tail := tx.head } with
                 ackMatters := false, port := { s.eng.port with scmd := 0x02 } }) ∧
      s.observed t [.portWrite .scmd 0x02]) ∧
    (∃ t, exec (.tIllegal k) s = .next t ∧ s.issuedTarget t 0x06)

/-! ## Port command codes -/

/-- R120 and R121, R122 to R129: each command code is the write of its byte to its command register, and nothing
else. R134: whatever a step does, it writes no other value to a command register, it changes a command register only by
such a write, and it never issues M_REPSTART (R126). -/
def Obligations.CommandCodesWriteTheirByte : Prop :=
  (∀ s t : State, step s = .next t → ∃ new, t.trace = s.trace ++ new ∧
    (∀ i v, (i, .portWrite .mcmd v) ∈ new → v ∈ ([0x02, 0x03, 0x04, 0x07] : List Byte)) ∧
    (∀ i v, (i, .portWrite .scmd v) ∈ new → v ∈ ([0x02, 0x03, 0x06] : List Byte)) ∧
    ∀ i, ((t.engineOf i).port.mcmd ≠ (s.engineOf i).port.mcmd → (i, .portWrite .mcmd (t.engineOf i).port.mcmd) ∈ new) ∧
      ((t.engineOf i).port.scmd ≠ (s.engineOf i).port.scmd → (i, .portWrite .scmd (t.engineOf i).port.scmd) ∈ new)) ∧
  ∀ s : State,
    (∃ t, exec .mRepstart s = .next t ∧ s.issuedMaster t 0x01) ∧
    (∃ t, exec .mAckRecv s = .next t ∧ s.issuedMaster t 0x02) ∧
    (∃ t, exec .mStop s = .next t ∧ s.issuedMaster t 0x03) ∧
    (∃ t, exec .mNackHold s = .next t ∧ s.issuedMaster t 0x04) ∧
    (∃ t, exec .mNackStop s = .next t ∧ s.issuedMaster t 0x07) ∧
    (∃ t, exec .tWaitStart s = .next t ∧ s.issuedTarget t 0x02) ∧
    (∃ t, exec .tAckResponse s = .next t ∧ s.issuedTarget t 0x03) ∧
    (∃ t, exec .tNackWaitStart s = .next t ∧ s.issuedTarget t 0x06)

/-! ## The Master Engine -/

/-- R183: M_START fails fast on an unknown bus state; M_WAIT_BUS waits while busy and then writes the address with
the direction bit of the transaction's kind. -/
def Obligations.StartAndWaitBusSteps : Prop :=
  ∀ s : State,
    let st := s.eng.port.mstatus
    let t := s.engineStep
    (s.eng.mstate = .start → s.framed t ∧ s.sameCells t ∧
      if st &&& 0x03 = 0x00 then
        t.eng = { s.eng with lastFault := .busNotReady, mstate := .idle } ∧
        s.observed t [.portRead .mstatus st, .respond 0]
      else t.eng = { s.eng with mstate := .waitBus } ∧ s.observed t [.portRead .mstatus st]) ∧
    (s.eng.mstate = .waitBus → s.framed t ∧ s.sameCells t ∧
      if st &&& 0x03 = 0x03 then t.eng = s.eng ∧ s.observed t [.portRead .mstatus st]
      else
        let a := if s.eng.mKind = .write then s.eng.txnAddress &&& 0xFE else s.eng.txnAddress ||| 0x01
        t.eng = { s.eng with mstate := .addrWait, port := { s.eng.port with maddr := a } } ∧
        s.observed t [.portRead .mstatus st, .portWrite .maddr a])

/-- R184 and R187: the address wait of a write retries after lost arbitration without touching the buffer, and the
data wait of both kinds only waits. -/
def Obligations.WriteAddressWaitAndDataWaitSteps : Prop :=
  ∀ s : State,
    let st := s.eng.port.mstatus
    let t := s.engineStep
    let done := st.getLsbD 7 = true ∨ st.getLsbD 6 = true
    (s.eng.mstate = .addrWait → s.eng.mKind = .write →
      s.framed t ∧ s.sameCells t ∧ s.observed t [.portRead .mstatus st] ∧
      (¬done → t.eng = s.eng) ∧
      (done → st.getLsbD 3 = true → t.eng = { s.eng with lastFault := .arbitrationLost, mstate := .waitBus }) ∧
      (done → st.getLsbD 3 = false → t.eng = { s.eng with mN := 0, mstate := .data })) ∧
    (s.eng.mstate = .dataWait →
      s.framed t ∧ s.sameCells t ∧ s.observed t [.portRead .mstatus st] ∧
      (done → t.eng = { s.eng with mstate := .data }) ∧ (¬done → t.eng = s.eng))

/-- R185, R186, R188: one data step of a write, the tests in the document's order. -/
def Obligations.WriteDataStep : Prop :=
  ∀ s : State, s.eng.mstate = .data → s.eng.mKind = .write →
    let st := s.eng.port.mstatus
    let t := s.engineStep
    let tx := s.eng.masterTx
    let b := tx.storage.read tx.tail
    s.framed t ∧ s.sameCells t ∧
    if st.getLsbD 3 = true ∨ st.getLsbD 2 = true then
      t.eng = { s.eng with mstate := .idle,
                           lastFault := if st.getLsbD 3 = true then .arbitrationLost else .busError } ∧
      s.observed t [.portRead .mstatus st, .respond 0]
    else if st.getLsbD 4 = true then
      t.eng = { s.eng with mstate := .idle, mSendStop := true, port := { s.eng.port with mcmd := 0x03 },
                           lastFault := if s.eng.mN = 0 then .addressNotAcknowledged else s.eng.lastFault } ∧
      s.observed t [.portRead .mstatus st, .portWrite .mcmd 0x03, .respond (s.eng.mN.setWidth 16)]
    else if tx.head ≠ tx.tail then
      t.eng = { s.eng with mstate := .dataWait, mN := s.eng.mN + 1, port := { s.eng.port with mdata := b },
                           masterTx := { tx with tail := (tx.tail + 1) % s.params.bufN } } ∧
      s.observed t [.portRead .mstatus st, .portWrite .mdata b]
    else if s.eng.mSendStop = true then
      t.eng = { s.eng with mstate := .idle, port := { s.eng.port with mcmd := 0x03 } } ∧
      s.observed t [.portRead .mstatus st, .portWrite .mcmd 0x03, .respond (s.eng.mN.setWidth 16)]
    else
      t.eng = { s.eng with mstate := .idle } ∧
      s.observed t [.portRead .mstatus st, .respond (s.eng.mN.setWidth 16)]

/-- R190, R191: the address wait of a read tests not-acknowledged first, never retries, and ends a read of 0 bytes. -/
def Obligations.ReadAddressWaitStep : Prop :=
  ∀ s : State, s.eng.mstate = .addrWait → s.eng.mKind = .read →
    let st := s.eng.port.mstatus
    let t := s.engineStep
    let c : Byte := if s.eng.mSendStop = true then 0x07 else 0x04
    s.framed t ∧ s.sameCells t ∧
    if ¬(st.getLsbD 7 = true ∨ st.getLsbD 6 = true) then t.eng = s.eng ∧ s.observed t [.portRead .mstatus st]
    else if st.getLsbD 4 = true then
      t.eng = { s.eng with mstate := .idle, lastFault := .addressNotAcknowledged,
                           port := { s.eng.port with mcmd := 0x03 } } ∧
      s.observed t [.portRead .mstatus st, .portWrite .mcmd 0x03, .respond 0]
    else if s.eng.mCount = 0 then
      t.eng = { s.eng with mstate := .idle, port := { s.eng.port with mcmd := c } } ∧
      s.observed t [.portRead .mstatus st, .portWrite .mcmd c, .respond (s.eng.mN.setWidth 16)]
    else t.eng = { s.eng with mN := 0, mstate := .data } ∧ s.observed t [.portRead .mstatus st]

/-- R192 to R195: one data step of a read: abort, full buffer (the waiting byte not read), or one byte stored and then
acknowledge-and-continue or the final NACK. -/
def Obligations.ReadDataStep : Prop :=
  ∀ s : State, s.storageInv → s.eng.mstate = .data → s.eng.mKind = .read →
    let st := s.eng.port.mstatus
    let t := s.engineStep
    let rx := s.eng.masterRx
    let next := (rx.head + 1) % s.params.bufN
    let v := s.eng.port.mdata
    let n := s.eng.mN + 1
    let c : Byte := if n < s.eng.mCount then 0x02 else if s.eng.mSendStop = true then 0x07 else 0x04
    s.framed t ∧
    if st.getLsbD 3 = true ∨ st.getLsbD 2 = true then
      t.eng = { s.eng with mstate := .idle,
                           lastFault := if st.getLsbD 3 = true then .arbitrationLost else .busError } ∧
      s.observed t [.portRead .mstatus st, .respond 0] ∧ s.sameCells t
    else if next = rx.tail then
      t.eng = { s.eng with mstate := .idle, mSendStop := true, lastFault := .localBufferFull,
                           port := { s.eng.port with mcmd := 0x07 } } ∧
      s.observed t [.portRead .mstatus st, .portWrite .mcmd 0x07, .respond (s.eng.mN.setWidth 16)] ∧ s.sameCells t
    else
      t.eng = { s.eng with mstate := if n < s.eng.mCount then .dataWait else .idle, mN := n,
                           port := { s.eng.port with mcmd := c }, masterRx := t.eng.masterRx } ∧
      t.eng.masterRx.head = next ∧ t.eng.masterRx.tail = rx.tail ∧ t.eng.masterRx.storage.read rx.head = v ∧
      s.sameCellsBut t .masterRx rx.head ∧
      s.observed t ([.portRead .mstatus st, .portRead .mdata v, .portWrite .mcmd c] ++
        (if n < s.eng.mCount then [] else [.respond (n.setWidth 16)]))

/-- R200: the transition table of `mstate`: what each transition of the Master Engine rests on, that exactly the
transitions into M_IDLE respond, once, and that no instruction but END and REQUEST moves `mstate`, to M_START. Of the
machine: a step moves an instance's `mstate` only as one of its engine steps, or as END or REQUEST from M_IDLE to
M_START, and these commands, when admitted in foreground context, always find it M_IDLE. -/
def Obligations.EngineTransitionTable : Prop :=
  (∀ s : State,
    let t := s.engineStep
    let st := s.eng.port.mstatus
    let write := s.eng.mKind = .write
    (match s.eng.mstate, t.eng.mstate with
      | .idle, .idle => True
      | .start, .idle => busState st = .unknown
      | .start, .waitBus => busState st ≠ .unknown
      | .waitBus, .waitBus => busState st = .busy
      | .waitBus, .addrWait => busState st ≠ .busy
      | .addrWait, .addrWait => phaseDone st = false
      | .addrWait, .waitBus => phaseDone st = true ∧ write ∧ mArbLost st = true
      | .addrWait, .data => phaseDone st = true ∧
          ((write ∧ mArbLost st = false) ∨ (¬write ∧ mRxNack st = false ∧ s.eng.mCount ≠ 0))
      | .addrWait, .idle => phaseDone st = true ∧ ¬write ∧ (mRxNack st = true ∨ s.eng.mCount = 0)
      | .data, .idle => phaseAborted st = true ∨
          (write ∧ (mRxNack st = true ∨ s.eng.masterTx.isEmpty = true)) ∨
          (¬write ∧ (s.eng.masterRx.isFull s.params.bufN = true ∨ ¬s.eng.mN + 1 < s.eng.mCount))
      | .data, .dataWait => phaseAborted st = false ∧
          ((write ∧ mRxNack st = false ∧ s.eng.masterTx.isEmpty = false) ∨
           (¬write ∧ s.eng.masterRx.isFull s.params.bufN = false ∧ s.eng.mN + 1 < s.eng.mCount))
      | .dataWait, .dataWait => phaseDone st = false
      | .dataWait, .data => phaseDone st = true
      | _, _ => False) ∧
    ∃ new, s.observed t new ∧
      (new.filter Obs.isResponse).length = if s.eng.mstate ≠ .idle ∧ t.eng.mstate = .idle then 1 else 0) ∧
  (∀ (i : Instr) (s t : State), exec i s = .next t → t.eng.mstate ≠ s.eng.mstate →
    t.eng.mstate = .start ∧ ((∃ stop, i = .endTransmission stop) ∨ ∃ a c stop, i = .request a c stop)) ∧
  (∀ (s : State) (a : Address7) (c : Byte) (stop : Bool), s.eng.cbState = .none →
    (∃ t, exec (.endTransmission stop) s = .next t ∧ t.eng.mstate = .start) ∧
    ∃ t, exec (.request a c stop) s = .next t ∧ t.eng.mstate = .start) ∧
  (∀ (s t : State) (i : InstId), step s = .next t → (t.engineOf i).mstate ≠ (s.engineOf i).mstate →
    (∃ rest, s.schedule = .engine i :: rest ∧ s.admits (.engine i) = true ∧
      t = ({ s with schedule := rest, sel := i } : State).engineStep) ∨
    ∃ w ins rest, s.schedule = .command i w :: rest ∧ s.admits (.command i w) = true ∧
      decode (.command w) = some ins ∧ ((∃ stop, ins = .endTransmission stop) ∨ ∃ a c stop, ins = .request a c stop) ∧
      (s.engineOf i).mstate = .idle ∧ (t.engineOf i).mstate = .start) ∧
  (∀ (s : State) (i : InstId) (w : CommandWord) (rest : List Stimulus) (ins : Instr),
    s.schedule = .command i w :: rest → s.admits (.command i w) = true → (s.engineOf i).cbState = .none →
    decode (.command w) = some ins → ((∃ stop, ins = .endTransmission stop) ∨ ∃ a c stop, ins = .request a c stop) →
    (s.engineOf i).mstate = .idle ∧ ∃ t, step s = .next t ∧ (t.engineOf i).mstate = .start)

/-! ## Invariants -/

/-- The storage invariant holds after reset, for every parameter set in the ranges of R6 and every port contents. -/
def Obligations.StorageInvariantAtReset : Prop :=
  ∀ (p : Params) (port0 port1 : Port), p.wf = true → (State.resetWith p port0 port1).storageInv

/-- Every step keeps the storage invariant: indices in 0..N-1 (R28), storage in canonical form, `txn_address[0]` = 0
(R26), the shared buffers of R27, parameters fixed (R6). -/
def Obligations.StepKeepsStorageInvariant : Prop :=
  ∀ s t : State, s.storageInv → step s = .next t → t.storageInv

/-- The role invariant holds after reset. -/
def Obligations.RoleInvariantAtReset : Prop :=
  ∀ p : Params, (State.resetWith p Port.zero Port.zero).roleInv

/-- Every step keeps the role invariant: the session flags and the control registers agree, with SIMULTANEOUS false
the roles exclude each other (R21, R245), a callback runs only while the target is enabled and its handle registered,
and the command registers hold only codes of R120 and R121 (R134). -/
def Obligations.StepKeepsRoleInvariant : Prop :=
  ∀ s t : State, s.roleInv → step s = .next t → t.roleInv

/-- The transaction invariant holds after reset. -/
def Obligations.TransactionInvariantAtReset : Prop :=
  ∀ (p : Params) (port0 port1 : Port), p.wf = true → (State.resetWith p port0 port1).transactionInv

/-- Every step keeps the transaction invariant: at most one blocking command in progress (R78, R318), a read's data
phase has bytes left to read (R192), and with four buffers the count of a read is what it stored (R189) and the count of
a write stays within N-1 (R186). -/
def Obligations.StepKeepsTransactionInvariant : Prop :=
  ∀ s t : State, s.transactionInv → step s = .next t → t.transactionInv

/-! ## Rules over every instruction -/

/-- R24: no instruction but T_DATA_REQ and T_NACK changes `ack_matters`. -/
def Obligations.OnlyDataRequestAndNackChangeAckMatters : Prop :=
  ∀ (i : Instr) (s t : State), exec i s = .next t → t.eng.ackMatters ≠ s.eng.ackMatters →
    (∃ k, i = .tDataReq k ∧ t.eng.ackMatters = true) ∨ (∃ k, i = .tNack k ∧ t.eng.ackMatters = false)

/-- R318: a step on one instance leaves the other instance's state as it is, and no step writes a parameter. -/
def Obligations.InstancesShareNoState : Prop :=
  ∀ (s t : State) (x : Stimulus) (rest : List Stimulus), s.schedule = x :: rest → step s = .next t →
    t.params = s.params ∧ ∀ i, i ≠ x.inst → t.engineOf i = s.engineOf i

/-- R298: nothing observed is ever taken back, so a refusal is on record for the rest of the run. -/
def Obligations.EveryStepExtendsTheTrace : Prop :=
  ∀ s t : State, step s = .next t → (∃ new, t.trace = s.trace ++ new) ∧ (s.refusalFree = false → t.refusalFree = false)

/-- R210: with four buffers a dispatcher run never touches the master buffers, `txn_address`, the Master Engine's
registers, the session's flags and handles, or a master-side port register. -/
def Obligations.DispatcherNeverTouchesMasterSide : Prop :=
  ∀ (i : Instr) (s t : State), s.params.simultaneous = true → isBranch i = true ∨ i = .cbReturn →
    exec i s = .next t →
    t.eng.masterTx = s.eng.masterTx ∧ t.eng.masterRx = s.eng.masterRx ∧ t.eng.txnAddress = s.eng.txnAddress ∧
    t.eng.mstate = s.eng.mstate ∧ t.eng.mKind = s.eng.mKind ∧ t.eng.mSendStop = s.eng.mSendStop ∧
    t.eng.mCount = s.eng.mCount ∧ t.eng.mN = s.eng.mN ∧
    t.eng.masterEnabled = s.eng.masterEnabled ∧ t.eng.targetEnabled = s.eng.targetEnabled ∧
    t.eng.onReceive = s.eng.onReceive ∧ t.eng.onRequest = s.eng.onRequest ∧
    (∀ r ∈ ([.ctrla, .mctrla, .mcmd, .mstatus, .mbaud, .maddr, .mdata] : List PortReg),
      t.eng.port.get r = s.eng.port.get r)

/-- R180: a Master Engine step touches no separate target buffer, no session register (R20), not the callback state and
no port register but MADDR, MDATA and MCMD, and never notifies. -/
def Obligations.MasterEngineNeverTouchesTargetSide : Prop :=
  ∀ s : State,
    let t := s.engineStep
    t.eng.targetTx = s.eng.targetTx ∧ t.eng.targetRx = s.eng.targetRx ∧ t.eng.cbState = s.eng.cbState ∧
    t.eng.txnAddress = s.eng.txnAddress ∧ t.eng.ackMatters = s.eng.ackMatters ∧
    t.eng.masterEnabled = s.eng.masterEnabled ∧ t.eng.targetEnabled = s.eng.targetEnabled ∧
    t.eng.targetAddress = s.eng.targetAddress ∧ t.eng.incomingAddress = s.eng.incomingAddress ∧
    t.eng.incomingValid = s.eng.incomingValid ∧ t.eng.onReceive = s.eng.onReceive ∧ t.eng.onRequest = s.eng.onRequest ∧
    (s.eng.mKind = .write → t.eng.masterRx = s.eng.masterRx) ∧ (s.eng.mKind = .read → t.eng.masterTx = s.eng.masterTx) ∧
    (∀ r ∈ ([.ctrla, .mctrla, .mstatus, .mbaud, .sctrla, .scmd, .sstatus, .saddr, .sdata, .saddrmask] : List PortReg),
      t.eng.port.get r = s.eng.port.get r) ∧
    ∃ new, s.observed t new ∧ new.all (fun o => !o.isNotification) = true ∧
      (new.filter (fun o => o == .portRead .mstatus s.eng.port.mstatus)).length = if s.eng.mstate = .idle then 0 else 1

/-! ## Ring buffers and whole transactions -/

/-- A ring buffer is a bounded queue (R142 to R149): push appends unless N-1 bytes are held, pop takes the oldest,
peek shows it, reset and discard empty it, available is the length. -/
def Obligations.RingBufferRefinesABoundedQueue : Prop :=
  ∀ (n : Nat) (rb : RingBuffer) (b : Byte), rb.wf n = true → 2 ≤ n →
    let q := rb.unread n
    rb.available n = q.length ∧ q.length ≤ n - 1 ∧
    (rb.isEmpty = true ↔ q = []) ∧ (rb.isFull n = true ↔ q.length = n - 1) ∧
    rb.tryPush n b = (if q.length = n - 1 then (false, rb) else (true, (rb.tryPush n b).2)) ∧
    (rb.tryPush n b).2.unread n = (if q.length = n - 1 then q else q ++ [b]) ∧
    (rb.pop n).1 = q.head? ∧ (rb.pop n).2.unread n = q.tail ∧ rb.peek = q.head? ∧
    rb.rewind.unread n = [] ∧ rb.discard.unread n = []

/-- R152: first in, first out; and after any sequence of pushes and pops on an empty buffer, `available` is the number
of successful pushes less the number of successful pops. -/
def Obligations.FirstInFirstOut : Prop :=
  ∀ (n : Nat) (rb : RingBuffer), rb.wf n = true → 2 ≤ n →
    (∀ bytes : List Byte, bytes.length ≤ n - 1 →
      (rb.discard.pushAll n bytes).2.popMany n (bytes.length + 1) = bytes.map some ++ [none] ∧
      (rb.rewind.pushAll n bytes).2.popMany n (bytes.length + 1) = bytes.map some ++ [none]) ∧
    (rb.isEmpty = true → ∀ ops : List RingOp,
      ((rb.tally n ops).1.available n : Int) = (rb.tally n ops).2.1 - (rb.tally n ops).2.2)

/-- R264: WRITE_N accepts as many bytes as there is room for, in order. -/
def Obligations.WriteManyAcceptsWhatFits : Prop :=
  ∀ (n : Nat) (rb : RingBuffer) (bytes : List Byte), rb.wf n = true → 2 ≤ n →
    let k := min bytes.length (n - 1 - rb.available n)
    (rb.pushAll n bytes).1 = k ∧ (rb.pushAll n bytes).2.unread n = rb.unread n ++ bytes.take k

/-- R188: "writing N bytes (N < buffer capacity) then end_transmission(true) against a simulated always-acknowledging
target returns N". The target acknowledges: every sample shows completion, no error and no NACK. The Master Engine, its
peripheral not moving, ends after four steps and two for each byte, having sent the bytes of `master_tx` in order. -/
def Obligations.AcknowledgedWriteSendsEveryByte : Prop :=
  ∀ s : State, s.storageInv → s.eng.mstate = .start → s.eng.mKind = .write → s.eng.mN = 0 →
    phaseDone s.eng.port.mstatus = true → phaseAborted s.eng.port.mstatus = false →
    mRxNack s.eng.port.mstatus = false →
    busState s.eng.port.mstatus ≠ .unknown → busState s.eng.port.mstatus ≠ .busy →
    let bytes := s.eng.masterTx.unread s.params.bufN
    let t := s.engineSteps (2 * bytes.length + 4)
    t.eng.mstate = .idle ∧ t.eng.masterTx.unread t.params.bufN = [] ∧
    (s.eng.mSendStop = true → t.eng.port.mcmd = 0x03) ∧
    (s.eng.mSendStop = false → t.eng.port.mcmd = s.eng.port.mcmd) ∧
    ∃ new, s.observed t (new ++ [.respond (BitVec.ofNat 16 bytes.length)]) ∧ new.filterMap Obs.sentByte = bytes ∧
      new.all (fun o => !o.isResponse) = true

/-- R195: a read of `count` bytes that fit, from a target that acknowledges, ends with all of them in `master_rx`, the
final NACK, and the response `count`. The peripheral does not move, so the bytes read are the one byte of MDATA. -/
def Obligations.AcknowledgedReadStoresEveryByte : Prop :=
  ∀ s : State, s.storageInv → s.eng.mstate = .start → s.eng.mKind = .read → s.eng.mN = 0 → s.eng.mCount ≠ 0 →
    s.eng.mCount.toNat ≤ s.params.bufN - 1 → s.eng.masterRx.unread s.params.bufN = [] →
    phaseDone s.eng.port.mstatus = true → phaseAborted s.eng.port.mstatus = false →
    mRxNack s.eng.port.mstatus = false →
    busState s.eng.port.mstatus ≠ .unknown → busState s.eng.port.mstatus ≠ .busy →
    let t := s.engineSteps (2 * s.eng.mCount.toNat + 2)
    t.eng.mstate = .idle ∧
    t.eng.masterRx.unread t.params.bufN = List.replicate s.eng.mCount.toNat s.eng.port.mdata ∧
    t.eng.port.mcmd = (if s.eng.mSendStop = true then 0x07 else 0x04) ∧
    ∃ new, s.observed t (new ++ [.respond (s.eng.mCount.setWidth 16)]) ∧
      new.all (fun o => !o.isResponse) = true

/-- R225: "an address-match event with master-writer role followed by 3 data-received events followed by a stop event
triggers exactly one on_receive(3) call and leaves the RX buffer holding exactly those 3 bytes". The environment of the
run: the peripheral shows each event's status and byte, and the event is delivered. -/
def Obligations.ThreeReceivedBytesNotifyOnce : Prop :=
  ∀ (s : State) (i : InstId) (address b1 b2 b3 : Byte) (rest : List Stimulus),
    s.storageInv → s.hasInst i = true → s.deliverable i = true → 4 ≤ s.params.bufN → (s.engineOf i).onReceive ≠ 0 →
    ((s.engineOf i).buffer (BufName.targetRx.resolve s.params.simultaneous)).isEmpty = true →
    s.schedule =
      [.periph i [(.sstatus, 0x61), (.sdata, address)], .event i,
       .periph i [(.sstatus, 0xA0), (.sdata, b1)], .event i,
       .periph i [(.sstatus, 0xA0), (.sdata, b2)], .event i,
       .periph i [(.sstatus, 0xA0), (.sdata, b3)], .event i,
       .periph i [(.sstatus, 0x40)], .event i] ++ rest →
    ∃ t, Host.Core.run Sys2Proof.core 10 s = .next t ∧ t.schedule = rest ∧
      (t.engineOf i).cbState = .rxStop ∧ (t.engineOf i).incomingAddress = address ∧
      ((t.engineOf i).buffer (BufName.targetRx.resolve s.params.simultaneous)).unread s.params.bufN = [b1, b2, b3] ∧
      ∃ new, t.trace = s.trace ++ new ∧
        new.filter (fun o => o.2.isNotification) = [(i, .notifyReceive (s.engineOf i).onReceive 3)]

/-- R275, R278, R35: the user code of a callback, a function from what it can see to a finite list of admitted commands
ending in CB_RETURN, runs to its end: whatever the other agents offer in between, each of its commands is answered once
and none is refused, and CB_RETURN ends the run or, after the receive callback of an address-reader run, asks for the
reply. That user code is this function is a premise (log entry 21). -/
def Obligations.CallbackCodeRunsToItsReturn : Prop :=
  ∀ (code : UserCode) (s : State) (i : InstId) (handle : Handle) (argument : Option Byte) (offers rest : List Stimulus),
    s.hasInst i = true → s.calls code → s.called i = some (handle, argument) →
    s.schedule = offers ++ .command i (hostWord .cbReturn) :: rest → .command i (hostWord .cbReturn) ∉ offers →
    let e := s.engineOf i
    ∃ t, Host.Core.run Sys2Proof.core (offers.length + 1) s = .next t ∧ t.schedule = rest ∧
      (t.engineOf i).cbState = (if e.cbState = .rxAddr ∧ e.onRequest ≠ 0 then .req else .none) ∧
      (e.cbState = .req ∨ (e.cbState = .rxAddr ∧ e.onRequest = 0) → (t.engineOf i).port.scmd = 0x03) ∧
      ∃ new, t.trace = s.trace ++ new ∧
        (new.filter (fun o => o.1 == i && o.2.isResponse)).length = (code handle (s.visible i argument)).length ∧
        new.all (fun o => o.1 != i || !o.2.isRefusal) = true
end

