-- ==== Sys2Proof/Laws/Encoding.lean ====
section
/-! SUPPORT. What the fields of an encoded word read back as (R100, R110). -/

namespace Sys2Proof

/-- The low `n` bits of an append are its right part. -/
theorem extract_append_low {m n : Nat} (a : BitVec m) (b : BitVec n) : (a ++ b).extractLsb' 0 n = b := by
  ext i hi
  simp [BitVec.getLsbD_append, hi]

/-- The bits of an append from `n` up are its left part. -/
theorem extract_append_high {m n : Nat} (a : BitVec m) (b : BitVec n) : (a ++ b).extractLsb' n m = a := by
  ext i hi
  simp [BitVec.getLsbD_append, hi]

@[simp] theorem op_commandWord (op : Byte) (arg : BitVec 32) : (commandWord op arg).op = op :=
  extract_append_high op arg

@[simp] theorem arg_commandWord (op : Byte) (arg : BitVec 32) : (commandWord op arg).arg = arg :=
  extract_append_low op arg

@[simp] theorem status_mk (a : Bool) (s : Byte) : (Key.mk a s).status = s := extract_append_low (BitVec.ofBool a) s

@[simp] theorem ackMatters_mk (a : Bool) (s : Byte) : (Key.mk a s).ackMatters = a := by
  show (BitVec.ofBool a ++ s).getLsbD 8 = a
  rw [BitVec.getLsbD_append]
  cases a <;> simp

end Sys2Proof
end

