-- ==== Sys2Proof/Laws/Memory.lean ====
section
/-! SUPPORT. The laws of a storage array: read after write, and that a write keeps the canonical form. -/

namespace Sys2Proof.Machine

/-- Every address of the list is above a bound. -/
def cellsAbove (a : Nat) (cs : List Host.Cell) : Prop := ∀ c ∈ cs, a < c.1

theorem readCells_above (a : Nat) (cs : List Host.Cell) (h : cellsAbove a cs) : readCells a cs = Memory.unlisted := by
  induction cs with
  | nil => rfl
  | cons c cs ih =>
    have hc : a < c.1 := h c (by simp)
    simp only [readCells]
    rw [if_neg (by omega)]
    exact ih (fun d hd => h d (by simp [hd]))

theorem cellsWf_cons (n k : Nat) (v : Byte) (cs : List Host.Cell) :
    cellsWf n ((k, v) :: cs) = true ↔ k < n ∧ v ≠ Memory.unlisted ∧ cellsAbove k cs ∧ cellsWf n cs = true := by
  simp [cellsWf, cellsAbove, and_assoc]

theorem writeCells_above (a k : Nat) (b : Byte) (cs : List Host.Cell) (hk : k < a) (h : cellsAbove k cs) :
    cellsAbove k (writeCells a b cs) := by
  induction cs with
  | nil =>
    simp only [writeCells]
    split
    · intro c hc; cases hc
    · intro c hc; simp only [List.mem_singleton] at hc; subst hc; exact hk
  | cons c cs ih =>
    obtain ⟨k', v⟩ := c
    have hc : k < k' := h (k', v) (by simp)
    have ht : cellsAbove k cs := fun d hd => h d (by simp [hd])
    simp only [writeCells]
    repeat' split
    all_goals intro d hd
    all_goals try simp only [List.mem_cons] at hd
    · rcases hd with rfl | hd
      · exact hc
      · exact ht d hd
    · rcases hd with rfl | rfl | hd
      · exact hk
      · exact hc
      · exact ht d hd
    · exact ht d hd
    · rcases hd with rfl | hd
      · exact hk
      · exact ht d hd
    · rcases hd with rfl | hd
      · exact hc
      · exact ih ht d hd

/-- Writing keeps the canonical form. -/
theorem writeCells_wf (n a : Nat) (b : Byte) (cs : List Host.Cell) (ha : a < n) (h : cellsWf n cs = true) :
    cellsWf n (writeCells a b cs) = true := by
  induction cs with
  | nil =>
    simp only [writeCells]
    split
    · rfl
    · rename_i hb; rw [cellsWf_cons]; exact ⟨ha, hb, by simp [cellsAbove], rfl⟩
  | cons c cs ih =>
    obtain ⟨k, v⟩ := c
    obtain ⟨hk, hv, hab, ht⟩ := (cellsWf_cons n k v cs).mp h
    simp only [writeCells]
    split
    · rename_i hlt
      split
      · exact h
      · rename_i hb
        rw [cellsWf_cons]
        refine ⟨ha, hb, ?_, h⟩
        intro d hd
        simp only [List.mem_cons] at hd
        rcases hd with rfl | hd
        · exact hlt
        · have := hab d hd; omega
    · split
      · rename_i hne heq
        split
        · exact ht
        · rename_i hb; rw [cellsWf_cons]; exact ⟨ha, hb, heq ▸ hab, ht⟩
      · rw [cellsWf_cons]
        exact ⟨hk, hv, writeCells_above a k b cs (by omega) hab, ih ht⟩

theorem readCells_writeCells_same (n a : Nat) (b : Byte) (cs : List Host.Cell) (h : cellsWf n cs = true) :
    readCells a (writeCells a b cs) = b := by
  induction cs with
  | nil => simp only [writeCells]; split <;> simp_all [readCells]
  | cons c cs ih =>
    obtain ⟨k, v⟩ := c
    obtain ⟨_, _, hab, ht⟩ := (cellsWf_cons n k v cs).mp h
    simp only [writeCells]
    split
    · rename_i hlt
      split
      · rename_i hb
        rw [hb]
        refine readCells_above a _ ?_
        intro d hd
        simp only [List.mem_cons] at hd
        rcases hd with rfl | hd
        · exact hlt
        · have := hab d hd; omega
      · simp [readCells]
    · split
      · rename_i hne heq
        split
        · rename_i hb; rw [hb]; exact readCells_above a cs (heq ▸ hab)
        · simp [readCells]
      · rename_i hne
        simp only [readCells]
        rw [if_neg (fun h => hne h.symm)]
        exact ih ht

theorem readCells_writeCells_other (a a' : Nat) (b : Byte) (cs : List Host.Cell) (hne : a' ≠ a)
    (h : ∃ n, cellsWf n cs = true) : readCells a' (writeCells a b cs) = readCells a' cs := by
  obtain ⟨n, h⟩ := h
  induction cs with
  | nil =>
    simp only [writeCells]
    split
    · rfl
    · simp [readCells, Ne.symm hne]
  | cons c cs ih =>
    obtain ⟨k, v⟩ := c
    obtain ⟨_, _, hab, ht⟩ := (cellsWf_cons n k v cs).mp h
    simp only [writeCells]
    split
    · split
      · rfl
      · simp [readCells, Ne.symm hne]
    · split
      · rename_i _ heq
        subst heq
        split <;> simp [readCells, Ne.symm hne]
      · simp only [readCells]
        rw [ih ht]

/-- Reading the cell just written gives the byte written. -/
@[simp] theorem Memory.read_write_same (n : Nat) (m : Memory) (a : Nat) (b : Byte) (h : m.wf n = true) :
    (m.write a b).read a = b := readCells_writeCells_same n a b m.cells h

/-- A write leaves every other cell alone. -/
theorem Memory.read_write_other (n : Nat) (m : Memory) (a a' : Nat) (b : Byte) (h : m.wf n = true) (hne : a' ≠ a) :
    (m.write a b).read a' = m.read a' := readCells_writeCells_other a a' b m.cells hne ⟨n, h⟩

/-- A write keeps the canonical form. -/
theorem Memory.write_wf (n : Nat) (m : Memory) (a : Nat) (b : Byte) (ha : a < n) (h : m.wf n = true) :
    (m.write a b).wf n = true := writeCells_wf n a b m.cells ha h

/-- After reset nothing is listed, which is the canonical form. -/
@[simp] theorem Memory.empty_wf (n : Nat) : (Memory.mk []).wf n = true := rfl

end Sys2Proof.Machine
end

