-- ==== Sys2Proof/Laws/RingBuffer.lean ====
section
/-! SUPPORT. One lemma for each ring-buffer primitive that says everything it can do, and that each keeps the buffer
well formed (40_ring_buffer.md). -/

namespace Sys2Proof.Machine

theorem adv_lt (n i : Nat) (h : 0 < n) : adv n i < n := Nat.mod_lt _ h

/-- Below the last index `adv` adds one; at the last index it wraps to 0 (R141). -/
theorem adv_eq (n i : Nat) (h : i < n) : adv n i = if i + 1 = n then 0 else i + 1 := by
  unfold adv
  split
  · simp [*]
  · exact Nat.mod_eq_of_lt (by omega)

theorem RingBuffer.wf_iff (n : Nat) (rb : RingBuffer) :
    rb.wf n = true ↔ rb.head < n ∧ rb.tail < n ∧ rb.storage.wf n = true := by
  simp [RingBuffer.wf, and_assoc]

@[simp] theorem RingBuffer.reset_wf (n : Nat) (h : 0 < n) : RingBuffer.reset.wf n = true := by
  simp [RingBuffer.wf_iff, RingBuffer.reset, h]

/-- `try_push` is rejected and changes nothing, or stores at `head` and advances it (R144). -/
theorem RingBuffer.tryPush_cases (n : Nat) (rb : RingBuffer) (b : Byte) :
    (rb.isFull n = true ∧ rb.tryPush n b = (false, rb)) ∨
    (rb.isFull n = false ∧
      rb.tryPush n b = (true, { rb with storage := rb.storage.write rb.head b, head := adv n rb.head })) := by
  unfold RingBuffer.tryPush
  split
  · exact .inl ⟨‹_›, rfl⟩
  · rename_i h; exact .inr ⟨by simpa using h, rfl⟩

/-- `pop` answers none and changes nothing, or gives the cell at `tail` and advances it (R145). -/
theorem RingBuffer.pop_cases (n : Nat) (rb : RingBuffer) :
    (rb.isEmpty = true ∧ rb.pop n = (none, rb)) ∨
    (rb.isEmpty = false ∧ rb.pop n = (some (rb.storage.read rb.tail), { rb with tail := adv n rb.tail })) := by
  unfold RingBuffer.pop
  split
  · exact .inl ⟨‹_›, rfl⟩
  · rename_i h; exact .inr ⟨by simpa using h, rfl⟩

theorem RingBuffer.tryPush_wf (n : Nat) (rb : RingBuffer) (b : Byte) (h : rb.wf n = true) :
    (rb.tryPush n b).2.wf n = true := by
  obtain ⟨hh, ht, hs⟩ := (rb.wf_iff n).mp h
  rcases rb.tryPush_cases n b with ⟨_, e⟩ | ⟨_, e⟩ <;> rw [e]
  · exact h
  · exact (RingBuffer.wf_iff n _).mpr ⟨adv_lt n _ (by omega), ht, Memory.write_wf n _ _ _ hh hs⟩

theorem RingBuffer.pop_wf (n : Nat) (rb : RingBuffer) (h : rb.wf n = true) : (rb.pop n).2.wf n = true := by
  obtain ⟨hh, ht, hs⟩ := (rb.wf_iff n).mp h
  rcases rb.pop_cases n with ⟨_, e⟩ | ⟨_, e⟩ <;> rw [e]
  · exact h
  · exact (RingBuffer.wf_iff n _).mpr ⟨hh, adv_lt n _ (by omega), hs⟩

theorem RingBuffer.rewind_wf (n : Nat) (rb : RingBuffer) (h : rb.wf n = true) : rb.rewind.wf n = true := by
  obtain ⟨hh, _, hs⟩ := (rb.wf_iff n).mp h
  exact (RingBuffer.wf_iff n _).mpr ⟨by simp [RingBuffer.rewind]; omega, by simp [RingBuffer.rewind]; omega, hs⟩

theorem RingBuffer.discard_wf (n : Nat) (rb : RingBuffer) (h : rb.wf n = true) : rb.discard.wf n = true := by
  obtain ⟨hh, _, hs⟩ := (rb.wf_iff n).mp h
  exact (RingBuffer.wf_iff n _).mpr ⟨hh, hh, hs⟩

/-- `available` without the `mod`: how far `head` is ahead of `tail`, going round (R149). -/
theorem RingBuffer.available_eq (n : Nat) (rb : RingBuffer) (hh : rb.head < n) (ht : rb.tail < n) :
    rb.available n = if rb.tail ≤ rb.head then rb.head - rb.tail else n + rb.head - rb.tail := by
  unfold RingBuffer.available
  split
  · rw [show n + rb.head - rb.tail = (rb.head - rb.tail) + n by omega, Nat.add_mod_right]
    exact Nat.mod_eq_of_lt (by omega)
  · exact Nat.mod_eq_of_lt (by omega)

@[simp] theorem RingBuffer.available_rewind (n : Nat) (rb : RingBuffer) : rb.rewind.available n = 0 := by
  simp [RingBuffer.rewind, RingBuffer.available]

@[simp] theorem RingBuffer.available_discard (n : Nat) (rb : RingBuffer) : rb.discard.available n = 0 := by
  simp [RingBuffer.discard, RingBuffer.available]

/-- A full buffer holds N-1 bytes (R29, R143). -/
theorem RingBuffer.isFull_iff (n : Nat) (rb : RingBuffer) (hh : rb.head < n) (ht : rb.tail < n) :
    rb.isFull n = true ↔ rb.available n = n - 1 := by
  rw [RingBuffer.available_eq n rb hh ht]
  simp only [RingBuffer.isFull, beq_iff_eq, adv_eq n rb.head hh]
  split <;> split <;> omega

/-- An empty buffer holds no byte (R142). -/
theorem RingBuffer.isEmpty_iff (n : Nat) (rb : RingBuffer) (hh : rb.head < n) (ht : rb.tail < n) :
    rb.isEmpty = true ↔ rb.available n = 0 := by
  rw [RingBuffer.available_eq n rb hh ht]
  simp only [RingBuffer.isEmpty, beq_iff_eq]
  split <;> omega

end Sys2Proof.Machine
end

