-- ==== Sys2Proof/Laws/State.lean ====
section
/-! SUPPORT. One lemma per field per update: what each named operation leaves in every component of the state. Proofs
rewrite with these and never unfold an operation. -/

namespace Sys2Proof.Machine

/-! ## Ports, instances and buffers -/

@[simp] theorem Port.get_mk_reads (p : Port) :
    p.get .ctrla = p.ctrla ∧ p.get .mctrla = p.mctrla ∧ p.get .mstatus = p.mstatus ∧ p.get .mbaud = p.mbaud ∧
    p.get .mdata = p.mdata ∧ p.get .sctrla = p.sctrla ∧ p.get .sstatus = p.sstatus ∧ p.get .sdata = p.sdata :=
  ⟨rfl, rfl, rfl, rfl, rfl, rfl, rfl, rfl⟩

/-- A register reads back what the engine wrote, but for `SSTATUS`, where ones clear. -/
theorem Port.get_engineWrite_same (p : Port) (r : PortReg) (v : Byte) (h : r ≠ .sstatus) :
    (p.engineWrite r v).get r = v := by
  cases r <;> first | rfl | exact absurd rfl h

/-- An engine write leaves every other register alone. -/
theorem Port.get_engineWrite_other (p : Port) (r r' : PortReg) (v : Byte) (h : r' ≠ r) :
    (p.engineWrite r v).get r' = p.get r' := by
  cases r <;> cases r' <;> first | rfl | exact absurd rfl h

/-- The peripheral writes only the two status and the two data registers (R40). -/
theorem Port.periphWrites_keeps (ws : List (PeriphReg × Byte)) : ∀ p : Port,
    (p.periphWrites ws).ctrla = p.ctrla ∧ (p.periphWrites ws).mctrla = p.mctrla ∧ (p.periphWrites ws).mcmd = p.mcmd ∧
    (p.periphWrites ws).mbaud = p.mbaud ∧ (p.periphWrites ws).maddr = p.maddr ∧ (p.periphWrites ws).sctrla = p.sctrla ∧
    (p.periphWrites ws).scmd = p.scmd ∧ (p.periphWrites ws).saddr = p.saddr ∧
    (p.periphWrites ws).saddrmask = p.saddrmask := by
  induction ws with
  | nil => intro p; simp [Port.periphWrites]
  | cons w ws ih =>
    intro p
    obtain ⟨r, v⟩ := w
    have := ih (p.periphWrite r v)
    cases r <;> simpa [Port.periphWrites, Port.periphWrite] using this

@[simp] theorem Engine.buffer_setBuffer_same (e : Engine) (b : BufName) (rb : RingBuffer) :
    (e.setBuffer b rb).buffer b = rb := by cases b <;> rfl

theorem Engine.buffer_setBuffer_other (e : Engine) (b b' : BufName) (rb : RingBuffer) (h : b' ≠ b) :
    (e.setBuffer b rb).buffer b' = e.buffer b' := by
  cases b <;> cases b' <;> first | rfl | exact absurd rfl h

@[simp] theorem Engine.setBuffer_setBuffer_same (e : Engine) (b : BufName) (rb rb' : RingBuffer) :
    (e.setBuffer b rb).setBuffer b rb' = e.setBuffer b rb' := by cases b <;> rfl

@[simp] theorem Engine.setBuffer_buffer_self (e : Engine) (b : BufName) : e.setBuffer b (e.buffer b) = e := by
  cases b <;> rfl

@[simp] theorem Engine.setBuffer_masterEnabled (e : Engine) (b : BufName) (rb : RingBuffer) :
    (e.setBuffer b rb).masterEnabled = e.masterEnabled := by cases b <;> rfl
@[simp] theorem Engine.setBuffer_targetEnabled (e : Engine) (b : BufName) (rb : RingBuffer) :
    (e.setBuffer b rb).targetEnabled = e.targetEnabled := by cases b <;> rfl
@[simp] theorem Engine.setBuffer_targetAddress (e : Engine) (b : BufName) (rb : RingBuffer) :
    (e.setBuffer b rb).targetAddress = e.targetAddress := by cases b <;> rfl
@[simp] theorem Engine.setBuffer_incomingAddress (e : Engine) (b : BufName) (rb : RingBuffer) :
    (e.setBuffer b rb).incomingAddress = e.incomingAddress := by cases b <;> rfl
@[simp] theorem Engine.setBuffer_incomingValid (e : Engine) (b : BufName) (rb : RingBuffer) :
    (e.setBuffer b rb).incomingValid = e.incomingValid := by cases b <;> rfl
@[simp] theorem Engine.setBuffer_ackMatters (e : Engine) (b : BufName) (rb : RingBuffer) :
    (e.setBuffer b rb).ackMatters = e.ackMatters := by cases b <;> rfl
@[simp] theorem Engine.setBuffer_onReceive (e : Engine) (b : BufName) (rb : RingBuffer) :
    (e.setBuffer b rb).onReceive = e.onReceive := by cases b <;> rfl
@[simp] theorem Engine.setBuffer_onRequest (e : Engine) (b : BufName) (rb : RingBuffer) :
    (e.setBuffer b rb).onRequest = e.onRequest := by cases b <;> rfl
@[simp] theorem Engine.setBuffer_txnAddress (e : Engine) (b : BufName) (rb : RingBuffer) :
    (e.setBuffer b rb).txnAddress = e.txnAddress := by cases b <;> rfl
@[simp] theorem Engine.setBuffer_mstate (e : Engine) (b : BufName) (rb : RingBuffer) :
    (e.setBuffer b rb).mstate = e.mstate := by cases b <;> rfl
@[simp] theorem Engine.setBuffer_mKind (e : Engine) (b : BufName) (rb : RingBuffer) :
    (e.setBuffer b rb).mKind = e.mKind := by cases b <;> rfl
@[simp] theorem Engine.setBuffer_mSendStop (e : Engine) (b : BufName) (rb : RingBuffer) :
    (e.setBuffer b rb).mSendStop = e.mSendStop := by cases b <;> rfl
@[simp] theorem Engine.setBuffer_mCount (e : Engine) (b : BufName) (rb : RingBuffer) :
    (e.setBuffer b rb).mCount = e.mCount := by cases b <;> rfl
@[simp] theorem Engine.setBuffer_mN (e : Engine) (b : BufName) (rb : RingBuffer) :
    (e.setBuffer b rb).mN = e.mN := by cases b <;> rfl
@[simp] theorem Engine.setBuffer_cbState (e : Engine) (b : BufName) (rb : RingBuffer) :
    (e.setBuffer b rb).cbState = e.cbState := by cases b <;> rfl
@[simp] theorem Engine.setBuffer_lastFault (e : Engine) (b : BufName) (rb : RingBuffer) :
    (e.setBuffer b rb).lastFault = e.lastFault := by cases b <;> rfl
@[simp] theorem Engine.setBuffer_port (e : Engine) (b : BufName) (rb : RingBuffer) :
    (e.setBuffer b rb).port = e.port := by cases b <;> rfl

@[simp] theorem resolve_masterTx (m : Bool) : BufName.resolve m .masterTx = .masterTx := rfl
@[simp] theorem resolve_masterRx (m : Bool) : BufName.resolve m .masterRx = .masterRx := rfl
@[simp] theorem resolve_resolve (m : Bool) (b : BufName) : (b.resolve m).resolve m = b.resolve m := by
  cases m <;> cases b <;> rfl

/-- The selected instance and the other one are the two instances. -/
theorem engineOf_cases (s : State) (i : InstId) :
    (i = s.sel ∧ s.engineOf i = s.eng) ∨ (i = s.sel.other ∧ s.engineOf i = s.otherEngine) := by
  rcases s with ⟨_, _, _, _, sel, _, _⟩
  cases sel <;> cases i <;> simp [State.eng, State.otherEngine, State.engineOf, InstId.other]

@[simp] theorem engineOf_sel (s : State) : s.engineOf s.sel = s.eng := rfl
@[simp] theorem engineOf_other (s : State) : s.engineOf s.sel.other = s.otherEngine := rfl
@[simp] theorem other_ne (i : InstId) : i.other ≠ i := by cases i <;> simp [InstId.other]
@[simp] theorem other_other (i : InstId) : i.other.other = i := by cases i <;> rfl

@[simp] theorem setEng_self (s : State) : s.setEng s.eng = s := by
  rcases s with ⟨_, _, _, _, sel, _, _⟩; cases sel <;> rfl

@[simp] theorem setEng_setEng (s : State) (e e' : Engine) : (s.setEng e).setEng e' = s.setEng e' := by
  rcases s with ⟨_, _, _, _, sel, _, _⟩; cases sel <;> rfl

/-- A state is its selected instance, its other instance and the rest. -/
theorem State.ext_eng (s t : State) (hp : t.params = s.params) (hs : t.sel = s.sel) (hc : t.schedule = s.schedule)
    (hd : t.draws = s.draws) (ht : t.trace = s.trace) (he : t.eng = s.eng) (ho : t.otherEngine = s.otherEngine) :
    t = s := by
  rcases s with ⟨_, _, _, _, sel, _, _⟩; rcases t with ⟨_, _, _, _, sel', _, _⟩
  simp only at hp hs hc hd ht
  subst hp hs hc hd ht
  cases sel' <;> simp_all [State.eng, State.otherEngine, State.engineOf, InstId.other]

/-! ## Operations, field by field -/

@[simp] theorem State.port_eq (s : State) (r : PortReg) : s.port r = s.eng.port.get r := rfl

/-! ### `setEng` -/

@[simp] theorem setEng_params (s : State) (e : Engine) : (s.setEng e).params = s.params := by
  unfold State.setEng; split <;> rfl
@[simp] theorem setEng_sel (s : State) (e : Engine) : (s.setEng e).sel = s.sel := by
  unfold State.setEng; split <;> rfl
@[simp] theorem setEng_schedule (s : State) (e : Engine) : (s.setEng e).schedule = s.schedule := by
  unfold State.setEng; split <;> rfl
@[simp] theorem setEng_draws (s : State) (e : Engine) : (s.setEng e).draws = s.draws := by
  unfold State.setEng; split <;> rfl
@[simp] theorem setEng_otherEngine (s : State) (e : Engine) : (s.setEng e).otherEngine = s.otherEngine := by
  rcases s with ⟨_, _, _, _, sel, _, _⟩; cases sel <;> rfl
@[simp] theorem setEng_trace (s : State) (e : Engine) : (s.setEng e).trace = s.trace := by
  unfold State.setEng; split <;> rfl
@[simp] theorem setEng_eng (s : State) (e : Engine) : (s.setEng e).eng = e := by
  rcases s with ⟨_, _, _, _, sel, _, _⟩; cases sel <;> rfl

/-! ### `emit` -/

@[simp] theorem emit_params (s : State) (o : Obs) : (s.emit o).params = s.params := rfl
@[simp] theorem emit_sel (s : State) (o : Obs) : (s.emit o).sel = s.sel := rfl
@[simp] theorem emit_schedule (s : State) (o : Obs) : (s.emit o).schedule = s.schedule := rfl
@[simp] theorem emit_draws (s : State) (o : Obs) : (s.emit o).draws = s.draws := rfl
@[simp] theorem emit_otherEngine (s : State) (o : Obs) : (s.emit o).otherEngine = s.otherEngine := rfl
@[simp] theorem emit_trace (s : State) (o : Obs) : (s.emit o).trace = s.trace ++ [(s.sel, o)] := rfl
@[simp] theorem emit_eng (s : State) (o : Obs) : (s.emit o).eng = s.eng := rfl

/-! ### `respond` -/

@[simp] theorem respond_params (s : State) (v : Response) : (s.respond v).params = s.params := by simp [State.respond]
@[simp] theorem respond_sel (s : State) (v : Response) : (s.respond v).sel = s.sel := by simp [State.respond]
@[simp] theorem respond_schedule (s : State) (v : Response) : (s.respond v).schedule = s.schedule := by simp [State.respond]
@[simp] theorem respond_draws (s : State) (v : Response) : (s.respond v).draws = s.draws := by simp [State.respond]
@[simp] theorem respond_otherEngine (s : State) (v : Response) : (s.respond v).otherEngine = s.otherEngine := by simp [State.respond]
@[simp] theorem respond_trace (s : State) (v : Response) : (s.respond v).trace = s.trace ++ [(s.sel, .respond v)] := by simp [State.respond]
@[simp] theorem respond_eng (s : State) (v : Response) : (s.respond v).eng = s.eng := by simp [State.respond]

/-! ### `refuse` -/

@[simp] theorem refuse_params (s : State) (r : RefuseReason) : (s.refuse r).params = s.params := by simp [State.refuse]
@[simp] theorem refuse_sel (s : State) (r : RefuseReason) : (s.refuse r).sel = s.sel := by simp [State.refuse]
@[simp] theorem refuse_schedule (s : State) (r : RefuseReason) : (s.refuse r).schedule = s.schedule := by simp [State.refuse]
@[simp] theorem refuse_draws (s : State) (r : RefuseReason) : (s.refuse r).draws = s.draws := by simp [State.refuse]
@[simp] theorem refuse_otherEngine (s : State) (r : RefuseReason) : (s.refuse r).otherEngine = s.otherEngine := by simp [State.refuse]
@[simp] theorem refuse_trace (s : State) (r : RefuseReason) : (s.refuse r).trace = s.trace ++ [(s.sel, .refused r)] := by simp [State.refuse]
@[simp] theorem refuse_eng (s : State) (r : RefuseReason) : (s.refuse r).eng = s.eng := by simp [State.refuse]

/-! ### `raise` -/

@[simp] theorem raise_params (s : State) (c : Condition) : (s.raise c).params = s.params := by simp [State.raise]
@[simp] theorem raise_sel (s : State) (c : Condition) : (s.raise c).sel = s.sel := by simp [State.raise]
@[simp] theorem raise_schedule (s : State) (c : Condition) : (s.raise c).schedule = s.schedule := by simp [State.raise]
@[simp] theorem raise_draws (s : State) (c : Condition) : (s.raise c).draws = s.draws := by simp [State.raise]
@[simp] theorem raise_otherEngine (s : State) (c : Condition) : (s.raise c).otherEngine = s.otherEngine := by simp [State.raise]
@[simp] theorem raise_trace (s : State) (c : Condition) : (s.raise c).trace = s.trace := by simp [State.raise]
@[simp] theorem raise_eng (s : State) (c : Condition) : (s.raise c).eng = { s.eng with lastFault := c } := by simp [State.raise]

/-! ### `noteRead` -/

@[simp] theorem noteRead_params (s : State) (r : PortReg) : (s.noteRead r).params = s.params := by simp [State.noteRead]
@[simp] theorem noteRead_sel (s : State) (r : PortReg) : (s.noteRead r).sel = s.sel := by simp [State.noteRead]
@[simp] theorem noteRead_schedule (s : State) (r : PortReg) : (s.noteRead r).schedule = s.schedule := by simp [State.noteRead]
@[simp] theorem noteRead_draws (s : State) (r : PortReg) : (s.noteRead r).draws = s.draws := by simp [State.noteRead]
@[simp] theorem noteRead_otherEngine (s : State) (r : PortReg) : (s.noteRead r).otherEngine = s.otherEngine := by simp [State.noteRead]
@[simp] theorem noteRead_trace (s : State) (r : PortReg) : (s.noteRead r).trace = s.trace ++ [(s.sel, .portRead r (s.eng.port.get r))] := by simp [State.noteRead]
@[simp] theorem noteRead_eng (s : State) (r : PortReg) : (s.noteRead r).eng = s.eng := by simp [State.noteRead]

/-! ### `writePort` -/

@[simp] theorem writePort_params (s : State) (r : PortReg) (v : Byte) : (s.writePort r v).params = s.params := by simp [State.writePort]
@[simp] theorem writePort_sel (s : State) (r : PortReg) (v : Byte) : (s.writePort r v).sel = s.sel := by simp [State.writePort]
@[simp] theorem writePort_schedule (s : State) (r : PortReg) (v : Byte) : (s.writePort r v).schedule = s.schedule := by simp [State.writePort]
@[simp] theorem writePort_draws (s : State) (r : PortReg) (v : Byte) : (s.writePort r v).draws = s.draws := by simp [State.writePort]
@[simp] theorem writePort_otherEngine (s : State) (r : PortReg) (v : Byte) : (s.writePort r v).otherEngine = s.otherEngine := by simp [State.writePort]
@[simp] theorem writePort_trace (s : State) (r : PortReg) (v : Byte) : (s.writePort r v).trace = s.trace ++ [(s.sel, .portWrite r v)] := by simp [State.writePort]
@[simp] theorem writePort_eng (s : State) (r : PortReg) (v : Byte) : (s.writePort r v).eng = { s.eng with port := s.eng.port.engineWrite r v } := by simp [State.writePort]

/-! ### `masterCommand` -/

@[simp] theorem masterCommand_params (s : State) (c : MasterCommand) : (s.masterCommand c).params = s.params := by simp [State.masterCommand]
@[simp] theorem masterCommand_sel (s : State) (c : MasterCommand) : (s.masterCommand c).sel = s.sel := by simp [State.masterCommand]
@[simp] theorem masterCommand_schedule (s : State) (c : MasterCommand) : (s.masterCommand c).schedule = s.schedule := by simp [State.masterCommand]
@[simp] theorem masterCommand_draws (s : State) (c : MasterCommand) : (s.masterCommand c).draws = s.draws := by simp [State.masterCommand]
@[simp] theorem masterCommand_otherEngine (s : State) (c : MasterCommand) : (s.masterCommand c).otherEngine = s.otherEngine := by simp [State.masterCommand]
@[simp] theorem masterCommand_trace (s : State) (c : MasterCommand) : (s.masterCommand c).trace = s.trace ++ [(s.sel, .portWrite .mcmd c.code)] := by simp [State.masterCommand]
@[simp] theorem masterCommand_eng (s : State) (c : MasterCommand) : (s.masterCommand c).eng = { s.eng with port := s.eng.port.engineWrite .mcmd c.code } := by simp [State.masterCommand]

/-! ### `targetCommand` -/

@[simp] theorem targetCommand_params (s : State) (c : TargetCommand) : (s.targetCommand c).params = s.params := by simp [State.targetCommand]
@[simp] theorem targetCommand_sel (s : State) (c : TargetCommand) : (s.targetCommand c).sel = s.sel := by simp [State.targetCommand]
@[simp] theorem targetCommand_schedule (s : State) (c : TargetCommand) : (s.targetCommand c).schedule = s.schedule := by simp [State.targetCommand]
@[simp] theorem targetCommand_draws (s : State) (c : TargetCommand) : (s.targetCommand c).draws = s.draws := by simp [State.targetCommand]
@[simp] theorem targetCommand_otherEngine (s : State) (c : TargetCommand) : (s.targetCommand c).otherEngine = s.otherEngine := by simp [State.targetCommand]
@[simp] theorem targetCommand_trace (s : State) (c : TargetCommand) : (s.targetCommand c).trace = s.trace ++ [(s.sel, .portWrite .scmd c.code)] := by simp [State.targetCommand]
@[simp] theorem targetCommand_eng (s : State) (c : TargetCommand) : (s.targetCommand c).eng = { s.eng with port := s.eng.port.engineWrite .scmd c.code } := by simp [State.targetCommand]

/-! ### `setBuf` -/

@[simp] theorem setBuf_params (s : State) (b : BufName) (rb : RingBuffer) : (s.setBuf b rb).params = s.params := by simp [State.setBuf]
@[simp] theorem setBuf_sel (s : State) (b : BufName) (rb : RingBuffer) : (s.setBuf b rb).sel = s.sel := by simp [State.setBuf]
@[simp] theorem setBuf_schedule (s : State) (b : BufName) (rb : RingBuffer) : (s.setBuf b rb).schedule = s.schedule := by simp [State.setBuf]
@[simp] theorem setBuf_draws (s : State) (b : BufName) (rb : RingBuffer) : (s.setBuf b rb).draws = s.draws := by simp [State.setBuf]
@[simp] theorem setBuf_otherEngine (s : State) (b : BufName) (rb : RingBuffer) : (s.setBuf b rb).otherEngine = s.otherEngine := by simp [State.setBuf]
@[simp] theorem setBuf_trace (s : State) (b : BufName) (rb : RingBuffer) : (s.setBuf b rb).trace = s.trace := by simp [State.setBuf]
@[simp] theorem setBuf_eng (s : State) (b : BufName) (rb : RingBuffer) : (s.setBuf b rb).eng = s.eng.setBuffer (b.resolve s.params.simultaneous) rb := by simp [State.setBuf]

/-! ### `rewind` -/

@[simp] theorem rewind_params (s : State) (b : BufName) : (s.rewind b).params = s.params := by simp [State.rewind]
@[simp] theorem rewind_sel (s : State) (b : BufName) : (s.rewind b).sel = s.sel := by simp [State.rewind]
@[simp] theorem rewind_schedule (s : State) (b : BufName) : (s.rewind b).schedule = s.schedule := by simp [State.rewind]
@[simp] theorem rewind_draws (s : State) (b : BufName) : (s.rewind b).draws = s.draws := by simp [State.rewind]
@[simp] theorem rewind_otherEngine (s : State) (b : BufName) : (s.rewind b).otherEngine = s.otherEngine := by simp [State.rewind]
@[simp] theorem rewind_trace (s : State) (b : BufName) : (s.rewind b).trace = s.trace := by simp [State.rewind]
@[simp] theorem rewind_eng (s : State) (b : BufName) : (s.rewind b).eng = s.eng.setBuffer (b.resolve s.params.simultaneous) (s.buf b).rewind := by simp [State.rewind]

/-! ### `discard` -/

@[simp] theorem discard_params (s : State) (b : BufName) : (s.discard b).params = s.params := by simp [State.discard]
@[simp] theorem discard_sel (s : State) (b : BufName) : (s.discard b).sel = s.sel := by simp [State.discard]
@[simp] theorem discard_schedule (s : State) (b : BufName) : (s.discard b).schedule = s.schedule := by simp [State.discard]
@[simp] theorem discard_draws (s : State) (b : BufName) : (s.discard b).draws = s.draws := by simp [State.discard]
@[simp] theorem discard_otherEngine (s : State) (b : BufName) : (s.discard b).otherEngine = s.otherEngine := by simp [State.discard]
@[simp] theorem discard_trace (s : State) (b : BufName) : (s.discard b).trace = s.trace := by simp [State.discard]
@[simp] theorem discard_eng (s : State) (b : BufName) : (s.discard b).eng = s.eng.setBuffer (b.resolve s.params.simultaneous) (s.buf b).discard := by simp [State.discard]

/-! ### `endRun` -/

@[simp] theorem endRun_params (s : State)  : (s.endRun).params = s.params := by simp [State.endRun]
@[simp] theorem endRun_sel (s : State)  : (s.endRun).sel = s.sel := by simp [State.endRun]
@[simp] theorem endRun_schedule (s : State)  : (s.endRun).schedule = s.schedule := by simp [State.endRun]
@[simp] theorem endRun_draws (s : State)  : (s.endRun).draws = s.draws := by simp [State.endRun]
@[simp] theorem endRun_otherEngine (s : State)  : (s.endRun).otherEngine = s.otherEngine := by simp [State.endRun]
@[simp] theorem endRun_trace (s : State)  : (s.endRun).trace = s.trace := by simp [State.endRun]
@[simp] theorem endRun_eng (s : State)  : (s.endRun).eng = { s.eng with cbState := .none } := by simp [State.endRun]

/-! ### `notifyReceive` -/

@[simp] theorem notifyReceive_params (s : State) (k : CbState) (c : Byte) : (s.notifyReceive k c).params = s.params := by simp [State.notifyReceive]
@[simp] theorem notifyReceive_sel (s : State) (k : CbState) (c : Byte) : (s.notifyReceive k c).sel = s.sel := by simp [State.notifyReceive]
@[simp] theorem notifyReceive_schedule (s : State) (k : CbState) (c : Byte) : (s.notifyReceive k c).schedule = s.schedule := by simp [State.notifyReceive]
@[simp] theorem notifyReceive_draws (s : State) (k : CbState) (c : Byte) : (s.notifyReceive k c).draws = s.draws := by simp [State.notifyReceive]
@[simp] theorem notifyReceive_otherEngine (s : State) (k : CbState) (c : Byte) : (s.notifyReceive k c).otherEngine = s.otherEngine := by simp [State.notifyReceive]
@[simp] theorem notifyReceive_trace (s : State) (k : CbState) (c : Byte) : (s.notifyReceive k c).trace = s.trace ++ [(s.sel, .notifyReceive s.eng.onReceive c)] := by simp [State.notifyReceive]
@[simp] theorem notifyReceive_eng (s : State) (k : CbState) (c : Byte) : (s.notifyReceive k c).eng = { s.eng with cbState := k } := by simp [State.notifyReceive]

/-! ### `notifyRequest` -/

@[simp] theorem notifyRequest_params (s : State)  : (s.notifyRequest).params = s.params := by simp [State.notifyRequest]
@[simp] theorem notifyRequest_sel (s : State)  : (s.notifyRequest).sel = s.sel := by simp [State.notifyRequest]
@[simp] theorem notifyRequest_schedule (s : State)  : (s.notifyRequest).schedule = s.schedule := by simp [State.notifyRequest]
@[simp] theorem notifyRequest_draws (s : State)  : (s.notifyRequest).draws = s.draws := by simp [State.notifyRequest]
@[simp] theorem notifyRequest_otherEngine (s : State)  : (s.notifyRequest).otherEngine = s.otherEngine := by simp [State.notifyRequest]
@[simp] theorem notifyRequest_trace (s : State)  : (s.notifyRequest).trace = s.trace ++ [(s.sel, .notifyRequest s.eng.onRequest)] := by simp [State.notifyRequest]
@[simp] theorem notifyRequest_eng (s : State)  : (s.notifyRequest).eng = { s.eng with cbState := .req } := by simp [State.notifyRequest]

/-! ### `acknowledgeAndEnd` -/

@[simp] theorem acknowledgeAndEnd_params (s : State)  : (s.acknowledgeAndEnd).params = s.params := by simp [State.acknowledgeAndEnd]
@[simp] theorem acknowledgeAndEnd_sel (s : State)  : (s.acknowledgeAndEnd).sel = s.sel := by simp [State.acknowledgeAndEnd]
@[simp] theorem acknowledgeAndEnd_schedule (s : State)  : (s.acknowledgeAndEnd).schedule = s.schedule := by simp [State.acknowledgeAndEnd]
@[simp] theorem acknowledgeAndEnd_draws (s : State)  : (s.acknowledgeAndEnd).draws = s.draws := by simp [State.acknowledgeAndEnd]
@[simp] theorem acknowledgeAndEnd_otherEngine (s : State)  : (s.acknowledgeAndEnd).otherEngine = s.otherEngine := by simp [State.acknowledgeAndEnd]
@[simp] theorem acknowledgeAndEnd_trace (s : State)  : (s.acknowledgeAndEnd).trace = s.trace ++ [(s.sel, .portWrite .scmd TargetCommand.ackResponse.code)] := by simp [State.acknowledgeAndEnd]
@[simp] theorem acknowledgeAndEnd_eng (s : State)  : (s.acknowledgeAndEnd).eng = { s.eng with port := s.eng.port.engineWrite .scmd TargetCommand.ackResponse.code, cbState := .none } := by simp [State.acknowledgeAndEnd]

/-! ### `latchIncoming` -/

@[simp] theorem latchIncoming_params (s : State)  : (s.latchIncoming).params = s.params := by simp [State.latchIncoming]
@[simp] theorem latchIncoming_sel (s : State)  : (s.latchIncoming).sel = s.sel := by simp [State.latchIncoming]
@[simp] theorem latchIncoming_schedule (s : State)  : (s.latchIncoming).schedule = s.schedule := by simp [State.latchIncoming]
@[simp] theorem latchIncoming_draws (s : State)  : (s.latchIncoming).draws = s.draws := by simp [State.latchIncoming]
@[simp] theorem latchIncoming_otherEngine (s : State)  : (s.latchIncoming).otherEngine = s.otherEngine := by simp [State.latchIncoming]
@[simp] theorem latchIncoming_trace (s : State)  : (s.latchIncoming).trace = s.trace ++ [(s.sel, .portRead .sdata s.eng.port.sdata)] := by simp [State.latchIncoming]
@[simp] theorem latchIncoming_eng (s : State)  : (s.latchIncoming).eng = { s.eng with incomingAddress := s.eng.port.sdata, incomingValid := true } := by simp [State.latchIncoming]

/-! ### `startTransaction` -/

@[simp] theorem startTransaction_params (s : State) (k : MKind) (c : Byte) (b : Bool) : (s.startTransaction k c b).params = s.params := by simp [State.startTransaction]
@[simp] theorem startTransaction_sel (s : State) (k : MKind) (c : Byte) (b : Bool) : (s.startTransaction k c b).sel = s.sel := by simp [State.startTransaction]
@[simp] theorem startTransaction_schedule (s : State) (k : MKind) (c : Byte) (b : Bool) : (s.startTransaction k c b).schedule = s.schedule := by simp [State.startTransaction]
@[simp] theorem startTransaction_draws (s : State) (k : MKind) (c : Byte) (b : Bool) : (s.startTransaction k c b).draws = s.draws := by simp [State.startTransaction]
@[simp] theorem startTransaction_otherEngine (s : State) (k : MKind) (c : Byte) (b : Bool) : (s.startTransaction k c b).otherEngine = s.otherEngine := by simp [State.startTransaction]
@[simp] theorem startTransaction_trace (s : State) (k : MKind) (c : Byte) (b : Bool) : (s.startTransaction k c b).trace = s.trace := by simp [State.startTransaction]
@[simp] theorem startTransaction_eng (s : State) (k : MKind) (c : Byte) (b : Bool) : (s.startTransaction k c b).eng = { s.eng with mKind := k, mCount := c, mSendStop := b, mN := 0, mstate := .start } := by simp [State.startTransaction]

/-! ### `goto` -/

@[simp] theorem goto_params (s : State) (m : MState) : (s.goto m).params = s.params := by simp [State.goto]
@[simp] theorem goto_sel (s : State) (m : MState) : (s.goto m).sel = s.sel := by simp [State.goto]
@[simp] theorem goto_schedule (s : State) (m : MState) : (s.goto m).schedule = s.schedule := by simp [State.goto]
@[simp] theorem goto_draws (s : State) (m : MState) : (s.goto m).draws = s.draws := by simp [State.goto]
@[simp] theorem goto_otherEngine (s : State) (m : MState) : (s.goto m).otherEngine = s.otherEngine := by simp [State.goto]
@[simp] theorem goto_trace (s : State) (m : MState) : (s.goto m).trace = s.trace := by simp [State.goto]
@[simp] theorem goto_eng (s : State) (m : MState) : (s.goto m).eng = { s.eng with mstate := m } := by simp [State.goto]

/-! ### `finish` -/

@[simp] theorem finish_params (s : State) (v : Response) : (s.finish v).params = s.params := by simp [State.finish]
@[simp] theorem finish_sel (s : State) (v : Response) : (s.finish v).sel = s.sel := by simp [State.finish]
@[simp] theorem finish_schedule (s : State) (v : Response) : (s.finish v).schedule = s.schedule := by simp [State.finish]
@[simp] theorem finish_draws (s : State) (v : Response) : (s.finish v).draws = s.draws := by simp [State.finish]
@[simp] theorem finish_otherEngine (s : State) (v : Response) : (s.finish v).otherEngine = s.otherEngine := by simp [State.finish]
@[simp] theorem finish_trace (s : State) (v : Response) : (s.finish v).trace = s.trace ++ [(s.sel, .respond v)] := by simp [State.finish]
@[simp] theorem finish_eng (s : State) (v : Response) : (s.finish v).eng = { s.eng with mstate := .idle } := by simp [State.finish]

/-! ### `setCount` -/

@[simp] theorem setCount_params (s : State) (n : Byte) : (s.setCount n).params = s.params := by simp [State.setCount]
@[simp] theorem setCount_sel (s : State) (n : Byte) : (s.setCount n).sel = s.sel := by simp [State.setCount]
@[simp] theorem setCount_schedule (s : State) (n : Byte) : (s.setCount n).schedule = s.schedule := by simp [State.setCount]
@[simp] theorem setCount_draws (s : State) (n : Byte) : (s.setCount n).draws = s.draws := by simp [State.setCount]
@[simp] theorem setCount_otherEngine (s : State) (n : Byte) : (s.setCount n).otherEngine = s.otherEngine := by simp [State.setCount]
@[simp] theorem setCount_trace (s : State) (n : Byte) : (s.setCount n).trace = s.trace := by simp [State.setCount]
@[simp] theorem setCount_eng (s : State) (n : Byte) : (s.setCount n).eng = { s.eng with mN := n } := by simp [State.setCount]

/-! ### `forceStop` -/

@[simp] theorem forceStop_params (s : State)  : (s.forceStop).params = s.params := by simp [State.forceStop]
@[simp] theorem forceStop_sel (s : State)  : (s.forceStop).sel = s.sel := by simp [State.forceStop]
@[simp] theorem forceStop_schedule (s : State)  : (s.forceStop).schedule = s.schedule := by simp [State.forceStop]
@[simp] theorem forceStop_draws (s : State)  : (s.forceStop).draws = s.draws := by simp [State.forceStop]
@[simp] theorem forceStop_otherEngine (s : State)  : (s.forceStop).otherEngine = s.otherEngine := by simp [State.forceStop]
@[simp] theorem forceStop_trace (s : State)  : (s.forceStop).trace = s.trace := by simp [State.forceStop]
@[simp] theorem forceStop_eng (s : State)  : (s.forceStop).eng = { s.eng with mSendStop := true } := by simp [State.forceStop]

/-! ### `abort` -/

@[simp] theorem abort_params (s : State) (st : Byte) : (s.abort st).params = s.params := by simp [State.abort]
@[simp] theorem abort_sel (s : State) (st : Byte) : (s.abort st).sel = s.sel := by simp [State.abort]
@[simp] theorem abort_schedule (s : State) (st : Byte) : (s.abort st).schedule = s.schedule := by simp [State.abort]
@[simp] theorem abort_draws (s : State) (st : Byte) : (s.abort st).draws = s.draws := by simp [State.abort]
@[simp] theorem abort_otherEngine (s : State) (st : Byte) : (s.abort st).otherEngine = s.otherEngine := by simp [State.abort]
@[simp] theorem abort_trace (s : State) (st : Byte) : (s.abort st).trace = s.trace ++ [(s.sel, .respond 0)] := by simp [State.abort]
@[simp] theorem abort_eng (s : State) (st : Byte) : (s.abort st).eng = { s.eng with lastFault := abortCondition st, mstate := .idle } := by simp [State.abort]

/-! ### `finishRead` -/

@[simp] theorem finishRead_params (s : State)  : (s.finishRead).params = s.params := by simp [State.finishRead]
@[simp] theorem finishRead_sel (s : State)  : (s.finishRead).sel = s.sel := by simp [State.finishRead]
@[simp] theorem finishRead_schedule (s : State)  : (s.finishRead).schedule = s.schedule := by simp [State.finishRead]
@[simp] theorem finishRead_draws (s : State)  : (s.finishRead).draws = s.draws := by simp [State.finishRead]
@[simp] theorem finishRead_otherEngine (s : State)  : (s.finishRead).otherEngine = s.otherEngine := by simp [State.finishRead]
@[simp] theorem finishRead_trace (s : State)  : (s.finishRead).trace = s.trace ++ [(s.sel, .portWrite .mcmd (readEndCommand s.eng.mSendStop).code), (s.sel, .respond (byteResponse s.eng.mN))] := by simp [State.finishRead]
@[simp] theorem finishRead_eng (s : State)  : (s.finishRead).eng = { s.eng with port := s.eng.port.engineWrite .mcmd (readEndCommand s.eng.mSendStop).code, mstate := .idle } := by simp [State.finishRead]

/-! ### `periphStep` -/

@[simp] theorem periphStep_params (s : State) (ws : List (PeriphReg × Byte)) : (s.periphStep ws).params = s.params := by simp [State.periphStep]
@[simp] theorem periphStep_sel (s : State) (ws : List (PeriphReg × Byte)) : (s.periphStep ws).sel = s.sel := by simp [State.periphStep]
@[simp] theorem periphStep_schedule (s : State) (ws : List (PeriphReg × Byte)) : (s.periphStep ws).schedule = s.schedule := by simp [State.periphStep]
@[simp] theorem periphStep_draws (s : State) (ws : List (PeriphReg × Byte)) : (s.periphStep ws).draws = s.draws := by simp [State.periphStep]
@[simp] theorem periphStep_otherEngine (s : State) (ws : List (PeriphReg × Byte)) : (s.periphStep ws).otherEngine = s.otherEngine := by simp [State.periphStep]
@[simp] theorem periphStep_trace (s : State) (ws : List (PeriphReg × Byte)) : (s.periphStep ws).trace = s.trace := by simp [State.periphStep]
@[simp] theorem periphStep_eng (s : State) (ws : List (PeriphReg × Byte)) : (s.periphStep ws).eng = { s.eng with port := s.eng.port.periphWrites ws } := by simp [State.periphStep]


/-! ## Reads -/

theorem State.buf_eq (s : State) (b : BufName) : s.buf b = s.eng.buffer (b.resolve s.params.simultaneous) := rfl

theorem State.available_eq (s : State) (b : BufName) : s.available b = (s.buf b).available s.params.bufN := rfl

/-! ## Buffers of the machine: what the operations on ports and registers leave alone -/

/-- An engine whose four buffers are the same has the same buffer under every name. -/
theorem Engine.buffer_congr {e e' : Engine} (h1 : e'.masterTx = e.masterTx) (h2 : e'.masterRx = e.masterRx)
    (h3 : e'.targetTx = e.targetTx) (h4 : e'.targetRx = e.targetRx) (b : BufName) : e'.buffer b = e.buffer b := by
  cases b <;> assumption

@[simp] theorem emit_buf (s : State) (o : Obs) (n : BufName) : (s.emit o).buf n = s.buf n := by
  rw [State.buf_eq, State.buf_eq]; simp only [emit_params]; exact Engine.buffer_congr (by simp) (by simp) (by simp) (by simp) _
@[simp] theorem respond_buf (s : State) (v : Response) (n : BufName) : (s.respond v).buf n = s.buf n := by
  rw [State.buf_eq, State.buf_eq]; simp only [respond_params]; exact Engine.buffer_congr (by simp) (by simp) (by simp) (by simp) _
@[simp] theorem refuse_buf (s : State) (r : RefuseReason) (n : BufName) : (s.refuse r).buf n = s.buf n := by
  rw [State.buf_eq, State.buf_eq]; simp only [refuse_params]; exact Engine.buffer_congr (by simp) (by simp) (by simp) (by simp) _
@[simp] theorem raise_buf (s : State) (c : Condition) (n : BufName) : (s.raise c).buf n = s.buf n := by
  rw [State.buf_eq, State.buf_eq]; simp only [raise_params]; exact Engine.buffer_congr (by simp) (by simp) (by simp) (by simp) _
@[simp] theorem noteRead_buf (s : State) (r : PortReg) (n : BufName) : (s.noteRead r).buf n = s.buf n := by
  rw [State.buf_eq, State.buf_eq]; simp only [noteRead_params]; exact Engine.buffer_congr (by simp) (by simp) (by simp) (by simp) _
@[simp] theorem writePort_buf (s : State) (r : PortReg) (v : Byte) (n : BufName) : (s.writePort r v).buf n = s.buf n := by
  rw [State.buf_eq, State.buf_eq]; simp only [writePort_params]; exact Engine.buffer_congr (by simp) (by simp) (by simp) (by simp) _
@[simp] theorem masterCommand_buf (s : State) (c : MasterCommand) (n : BufName) : (s.masterCommand c).buf n = s.buf n := by
  rw [State.buf_eq, State.buf_eq]; simp only [masterCommand_params]; exact Engine.buffer_congr (by simp) (by simp) (by simp) (by simp) _
@[simp] theorem targetCommand_buf (s : State) (c : TargetCommand) (n : BufName) : (s.targetCommand c).buf n = s.buf n := by
  rw [State.buf_eq, State.buf_eq]; simp only [targetCommand_params]; exact Engine.buffer_congr (by simp) (by simp) (by simp) (by simp) _
@[simp] theorem endRun_buf (s : State) (n : BufName) : (s.endRun).buf n = s.buf n := by
  rw [State.buf_eq, State.buf_eq]; simp only [endRun_params]; exact Engine.buffer_congr (by simp) (by simp) (by simp) (by simp) _
@[simp] theorem acknowledgeAndEnd_buf (s : State) (n : BufName) : (s.acknowledgeAndEnd).buf n = s.buf n := by
  rw [State.buf_eq, State.buf_eq]; simp only [acknowledgeAndEnd_params]; exact Engine.buffer_congr (by simp) (by simp) (by simp) (by simp) _
@[simp] theorem latchIncoming_buf (s : State) (n : BufName) : (s.latchIncoming).buf n = s.buf n := by
  rw [State.buf_eq, State.buf_eq]; simp only [latchIncoming_params]; exact Engine.buffer_congr (by simp) (by simp) (by simp) (by simp) _
@[simp] theorem notifyReceive_buf (s : State) (k : CbState) (c : Byte) (n : BufName) : (s.notifyReceive k c).buf n = s.buf n := by
  rw [State.buf_eq, State.buf_eq]; simp only [notifyReceive_params]; exact Engine.buffer_congr (by simp) (by simp) (by simp) (by simp) _
@[simp] theorem notifyRequest_buf (s : State) (n : BufName) : (s.notifyRequest).buf n = s.buf n := by
  rw [State.buf_eq, State.buf_eq]; simp only [notifyRequest_params]; exact Engine.buffer_congr (by simp) (by simp) (by simp) (by simp) _
@[simp] theorem startTransaction_buf (s : State) (k : MKind) (c : Byte) (b : Bool) (n : BufName) : (s.startTransaction k c b).buf n = s.buf n := by
  rw [State.buf_eq, State.buf_eq]; simp only [startTransaction_params]; exact Engine.buffer_congr (by simp) (by simp) (by simp) (by simp) _
@[simp] theorem goto_buf (s : State) (m : MState) (n : BufName) : (s.goto m).buf n = s.buf n := by
  rw [State.buf_eq, State.buf_eq]; simp only [goto_params]; exact Engine.buffer_congr (by simp) (by simp) (by simp) (by simp) _
@[simp] theorem setCount_buf (s : State) (c : Byte) (n : BufName) : (s.setCount c).buf n = s.buf n := by
  rw [State.buf_eq, State.buf_eq]; simp only [setCount_params]; exact Engine.buffer_congr (by simp) (by simp) (by simp) (by simp) _
@[simp] theorem forceStop_buf (s : State) (n : BufName) : (s.forceStop).buf n = s.buf n := by
  rw [State.buf_eq, State.buf_eq]; simp only [forceStop_params]; exact Engine.buffer_congr (by simp) (by simp) (by simp) (by simp) _
@[simp] theorem finish_buf (s : State) (v : Response) (n : BufName) : (s.finish v).buf n = s.buf n := by
  rw [State.buf_eq, State.buf_eq]; simp only [finish_params]; exact Engine.buffer_congr (by simp) (by simp) (by simp) (by simp) _

end Sys2Proof.Machine
end

