-- ==== Sys2Proof/Laws/Ops.lean ====
section
/-! SUPPORT. One lemma for each operation with cases: everything the operation can come to. -/

namespace Sys2Proof.Machine

/-- A push on a machine's buffer (R144): rejected with the ghost raised, or stored. -/
theorem State.tryPush_cases (s : State) (b : BufName) (v : Byte) :
    ((s.buf b).isFull s.params.bufN = true ∧ s.tryPush b v = (false, s.raise .localBufferFull)) ∨
    ((s.buf b).isFull s.params.bufN = false ∧
      s.tryPush b v = (true, s.setBuf b { (s.buf b) with
        storage := (s.buf b).storage.write (s.buf b).head v, head := adv s.params.bufN (s.buf b).head })) := by
  unfold State.tryPush
  rcases (s.buf b).tryPush_cases s.params.bufN v with ⟨h, e⟩ | ⟨h, e⟩ <;> rw [e]
  · exact .inl ⟨h, rfl⟩
  · exact .inr ⟨h, rfl⟩

/-- A pop on a machine's buffer (R145): nothing there and nothing changed, or the oldest byte taken. -/
theorem State.pop_cases (s : State) (b : BufName) :
    ((s.buf b).isEmpty = true ∧ s.pop b = (none, s)) ∨
    ((s.buf b).isEmpty = false ∧
      s.pop b = (some ((s.buf b).storage.read (s.buf b).tail),
        s.setBuf b { (s.buf b) with tail := adv s.params.bufN (s.buf b).tail })) := by
  unfold State.pop
  rcases (s.buf b).pop_cases s.params.bufN with ⟨h, e⟩ | ⟨h, e⟩ <;> rw [e]
  · exact .inl ⟨h, rfl⟩
  · exact .inr ⟨h, rfl⟩

/-- A foreground-only command in foreground context runs (R275). -/
theorem State.inForeground_run (s : State) (f : State → State) (h : s.eng.cbState = .none) :
    s.inForeground f = f s := by simp [State.inForeground, State.inCallback, h]

/-- A foreground-only command in a callback is refused (R275). -/
theorem State.inForeground_refuse (s : State) (f : State → State) (h : s.eng.cbState ≠ .none) :
    s.inForeground f = s.refuse .wrongContext := by simp [State.inForeground, State.inCallback, h]

/-- `deliver_rx` (R217): suspended in the callback, or the bytes discarded and the run gone on. -/
theorem State.deliverRx_cases (s : State) (k : CbState) (f : State → State) :
    (s.available .targetRx ≠ 0 ∧ s.eng.onReceive ≠ 0 ∧
      s.deliverRx k f = s.notifyReceive k (BitVec.ofNat 8 (s.available .targetRx))) ∨
    ((s.available .targetRx = 0 ∨ s.eng.onReceive = 0) ∧ s.deliverRx k f = f (s.discard .targetRx)) := by
  unfold State.deliverRx
  split
  · rename_i h; exact .inl ⟨h.1, h.2, rfl⟩
  · rename_i h
    refine .inr ⟨?_, rfl⟩
    by_cases h0 : s.available .targetRx = 0
    · exact .inl h0
    · exact .inr (by simpa [h0] using h)

/-- The request half of an address-reader run (R219). -/
theorem State.requestPhase_cases (s : State) :
    (s.eng.onRequest ≠ 0 ∧ s.requestPhase = s.notifyRequest) ∨
    (s.eng.onRequest = 0 ∧ s.requestPhase = s.acknowledgeAndEnd) := by
  unfold State.requestPhase
  split
  · exact .inl ⟨‹_›, rfl⟩
  · rename_i h; exact .inr ⟨by simpa using h, rfl⟩

/-- An offer is taken or not taken (R78). -/
theorem State.fetch_cases (s : State) :
    (s.schedule = [] ∧ s.fetch = .done s) ∨
    (∃ x rest, s.schedule = x :: rest ∧
      ((s.admits x = true ∧ s.fetch = ({ s with schedule := rest } : State).take x) ∨
       (s.admits x = false ∧ s.fetch = .done { s with schedule := rest }))) := by
  unfold State.fetch
  split
  · rename_i h; exact .inl ⟨h, rfl⟩
  · rename_i x rest h
    refine .inr ⟨x, rest, h, ?_⟩
    split
    · exact .inl ⟨‹_›, rfl⟩
    · rename_i h; exact .inr ⟨by simpa using h, rfl⟩

/-! ## Frames -/

/-- Either the selected instance or the other one. -/
theorem State.engineOf_cases (s : State) (i : InstId) : s.engineOf i = if i = s.sel then s.eng else s.otherEngine := by
  rcases s with ⟨p, e0, e1, tr, sel, sch, dr⟩
  cases sel <;> cases i <;> rfl

/-- The frame of a step, from its five components. -/
theorem State.framed_intro {s t : State} (hp : t.params = s.params) (hs : t.sel = s.sel)
    (hq : t.schedule = s.schedule) (ho : t.otherEngine = s.otherEngine) (hd : t.draws = s.draws) : s.framed t :=
  ⟨⟨hp, hs, hq, ho⟩, hd⟩

/-- Cells are the same when those of the selected instance are. -/
theorem State.sameCells_intro {s t : State} (hs : t.sel = s.sel) (ho : t.otherEngine = s.otherEngine)
    (h : ∀ b a, (t.eng.buffer b).storage.read a = (s.eng.buffer b).storage.read a) : s.sameCells t := by
  intro i b a
  unfold State.readCell
  rw [t.engineOf_cases, s.engineOf_cases, hs, ho]
  split
  · exact h b a
  · rfl

/-- The same with one cell excepted. -/
theorem State.sameCellsBut_intro {s t : State} {n : BufName} {k : Nat} (hs : t.sel = s.sel)
    (ho : t.otherEngine = s.otherEngine)
    (h : ∀ b a, ¬(b = n.resolve s.params.simultaneous ∧ a = k) →
      (t.eng.buffer b).storage.read a = (s.eng.buffer b).storage.read a) : s.sameCellsBut t n k := by
  intro i b a hne
  unfold State.readCell
  rw [t.engineOf_cases, s.engineOf_cases, hs, ho]
  split
  · exact h b a (fun hh => hne ⟨‹_›, hh⟩)
  · rfl

/-- `discard` moves an index and no cell (R148). -/
theorem State.discard_cells (s : State) (n b : BufName) (a : Nat) :
    ((s.discard n).eng.buffer b).storage.read a = (s.eng.buffer b).storage.read a := by
  cases hp : s.params.simultaneous <;> cases n <;> cases b <;>
    simp [State.discard, RingBuffer.discard, Engine.buffer, Engine.setBuffer, BufName.resolve, State.buf, hp]

/-- `reset` of a buffer moves its indices and no cell (R147). -/
theorem State.rewind_cells (s : State) (n b : BufName) (a : Nat) :
    ((s.rewind n).eng.buffer b).storage.read a = (s.eng.buffer b).storage.read a := by
  cases hp : s.params.simultaneous <;> cases n <;> cases b <;>
    simp [State.rewind, RingBuffer.rewind, Engine.buffer, Engine.setBuffer, BufName.resolve, State.buf, hp]

/-! ## The Master Engine -/

/-- The data read of a master read, without its nested definitions (R193). -/
theorem State.receiveNext_eq (s : State) : s.receiveNext =
    if ((s.noteRead .mdata).tryPush .masterRx (s.port .mdata)).2.eng.mN + 1 <
        ((s.noteRead .mdata).tryPush .masterRx (s.port .mdata)).2.eng.mCount then
      ((((s.noteRead .mdata).tryPush .masterRx (s.port .mdata)).2.setCount
        (((s.noteRead .mdata).tryPush .masterRx (s.port .mdata)).2.eng.mN + 1)).masterCommand .ackRecv).goto .dataWait
    else (((s.noteRead .mdata).tryPush .masterRx (s.port .mdata)).2.setCount
        (((s.noteRead .mdata).tryPush .masterRx (s.port .mdata)).2.eng.mN + 1)).finishRead := by
  unfold State.receiveNext
  simp

end Sys2Proof.Machine
end

