-- ==== Sys2Proof/Laws/Callback.lean ====
section
/-! SUPPORT. User code of callbacks: its words decode to its commands, and what it sees is what the commands show. -/

namespace Sys2Proof.Machine

/-- The word of a callback command decodes to it. -/
theorem decode_hostWord (c : CallbackCommand) : decode (.command (hostWord c.instr)) = some c.instr := by
  cases c with
  | write b => revert b; decide
  | _ => decide

/-- The word of CB_RETURN decodes to it. -/
theorem decode_hostWord_cbReturn : decode (.command (hostWord .cbReturn)) = some .cbReturn := by decide

/-- No callback command has the word of CB_RETURN, so a call's code ends at its first CB_RETURN. -/
theorem hostWord_ne_cbReturn (c : CallbackCommand) : hostWord c.instr ≠ hostWord .cbReturn := fun h => by
  have e := decode_hostWord c
  rw [h, decode_hostWord_cbReturn] at e
  cases c <;> cases e

@[simp] theorem commandsFor_nil (i : InstId) : commandsFor i [] = [] := rfl

@[simp] theorem commandsFor_append (i : InstId) (xs ys : List Stimulus) :
    commandsFor i (xs ++ ys) = commandsFor i xs ++ commandsFor i ys := List.filterMap_append ..

@[simp] theorem commandsFor_command (i : InstId) (w : CommandWord) (xs : List Stimulus) :
    commandsFor i (.command i w :: xs) = w :: commandsFor i xs := by simp [commandsFor]

/-- A callback is running where one has been called. -/
theorem State.called_cbState {s : State} {i : InstId} {call : Handle × Option Byte} (h : s.called i = some call) :
    (s.engineOf i).cbState ≠ .none := fun e => by simp [State.called, e] at h

/-- In a callback AVAILABLE answers the number of received bytes its user code sees (R266). -/
theorem exec_available_visible (s : State) (a : Option Byte) (h : s.eng.cbState ≠ .none) :
    exec .available s = .next (s.respond (countResponse (s.visible s.sel a).received.length)) := by
  simp only [exec, execAvailable, State.rxb, State.inCallback, bne_iff_ne.mpr h, if_true]
  simp [State.available, State.visible, RingBuffer.unread, State.buf]

/-- GET_INCOMING answers the address its user code sees (R271). -/
theorem exec_getIncoming_visible (s : State) (a : Option Byte) :
    ∃ t, exec .getIncoming s = .next t ∧ t.trace = s.trace ++ [(s.sel, .respond (byteResponse (s.visible s.sel a).incoming))] := by
  refine ⟨_, rfl, ?_⟩
  cases h : s.eng.incomingValid <;> simp [State.visible, State.respond, State.emit, h]

end Sys2Proof.Machine
end

