-- ==== Sys2Proof/Laws/PerInstr.lean ====
section
/-! SUPPORT. Statements about every instruction, one lemma per constructor. -/

namespace Sys2Proof.Laws.OpcodeKnown

/-- An instruction that is encoded as a host command word has an opcode of the map of R101. -/
def Statement (i : Instr) : Prop := ∀ w, encode i = .command w → (lookupCommand w.op).isSome = true

/-- The opcode of a host command word is the one it was built with. -/
theorem of_word (op : Byte) (arg : BitVec 32) (h : (lookupCommand op).isSome = true) :
    ∀ w, Encoded.command (commandWord op arg) = .command w → (lookupCommand w.op).isSome = true := by
  intro w e
  injection e with e
  rw [← e, op_commandWord]
  exact h

theorem beginTransmission : ∀ a, Statement (.beginTransmission a) := fun _ => of_word _ _ (by decide)
theorem write : ∀ a, Statement (.write a) := fun _ => of_word _ _ (by decide)
theorem endTransmission : ∀ a, Statement (.endTransmission a) := fun _ => of_word _ _ (by decide)
theorem request : ∀ a b c, Statement (.request a b c) := fun _ _ _ => of_word _ _ (by decide)
theorem available : Statement (.available) := of_word _ _ (by decide)
theorem read : Statement (.read) := of_word _ _ (by decide)
theorem peek : Statement (.peek) := of_word _ _ (by decide)
theorem flush : Statement (.flush) := of_word _ _ (by decide)
theorem enableMaster : Statement (.enableMaster) := of_word _ _ (by decide)
theorem enableTarget : ∀ a b c, Statement (.enableTarget a b c) := fun _ _ _ => of_word _ _ (by decide)
theorem disableMaster : Statement (.disableMaster) := of_word _ _ (by decide)
theorem disableTarget : Statement (.disableTarget) := of_word _ _ (by decide)
theorem setClock : ∀ a, Statement (.setClock a) := fun _ => of_word _ _ (by decide)
theorem getIncoming : Statement (.getIncoming) := of_word _ _ (by decide)
theorem onReceive : ∀ a, Statement (.onReceive a) := fun _ => of_word _ _ (by decide)
theorem onRequest : ∀ a, Statement (.onRequest a) := fun _ => of_word _ _ (by decide)
theorem calcBaud : ∀ a, Statement (.calcBaud a) := fun _ => of_word _ _ (by decide)
theorem selectPins : ∀ a b, Statement (.selectPins a b) := fun _ _ => of_word _ _ (by decide)
theorem swapPins : ∀ a, Statement (.swapPins a) := fun _ => of_word _ _ (by decide)
theorem pullups : Statement (.pullups) := of_word _ _ (by decide)
theorem cbReturn : Statement (.cbReturn) := of_word _ _ (by decide)
theorem tBuserr : ∀ a, Statement (.tBuserr a) := fun _ => fun _ e => nomatch e
theorem tStop : ∀ a, Statement (.tStop a) := fun _ => fun _ e => nomatch e
theorem tAddrW : ∀ a, Statement (.tAddrW a) := fun _ => fun _ e => nomatch e
theorem tAddrR : ∀ a, Statement (.tAddrR a) := fun _ => fun _ e => nomatch e
theorem tDataRx : ∀ a, Statement (.tDataRx a) := fun _ => fun _ e => nomatch e
theorem tDataReq : ∀ a, Statement (.tDataReq a) := fun _ => fun _ e => nomatch e
theorem tNack : ∀ a, Statement (.tNack a) := fun _ => fun _ e => nomatch e
theorem tIllegal : ∀ a, Statement (.tIllegal a) := fun _ => fun _ e => nomatch e
theorem mRepstart : Statement (.mRepstart) := fun _ e => nomatch e
theorem mAckRecv : Statement (.mAckRecv) := fun _ e => nomatch e
theorem mStop : Statement (.mStop) := fun _ e => nomatch e
theorem mNackHold : Statement (.mNackHold) := fun _ e => nomatch e
theorem mNackStop : Statement (.mNackStop) := fun _ e => nomatch e
theorem tWaitStart : Statement (.tWaitStart) := fun _ e => nomatch e
theorem tAckResponse : Statement (.tAckResponse) := fun _ e => nomatch e
theorem tNackWaitStart : Statement (.tNackWaitStart) := fun _ e => nomatch e

end Sys2Proof.Laws.OpcodeKnown
end

