-- ==== Sys2Proof/Tests/Slice0.lean ====
section
/-! SUPPORT. Tests of one decode or one step each, their expected values taken from the vectors of 95_test_vectors.md
(named in each comment), and witnesses that the hypotheses of the obligations are met. -/

namespace Sys2Proof.Tests

open Sys2Proof.Machine

/-! ## Helpers -/

/-- Instance 0 changed from its reset state. -/
def start (f : Engine → Engine) : State := { State.reset with engine0 := f State.reset.engine0 }

/-- The same on a machine whose roles share two buffers. -/
def shared (f : Engine → Engine) : State := { start f with params := { Params.reference with simultaneous := false } }

/-- Two instances, instance 0 changed. -/
def two (f : Engine → Engine) : State := { start f with params := { Params.reference with numInstances := 2 } }

/-- A buffer holding bytes from index 0 on. -/
def holding (bytes : List Byte) : RingBuffer := (RingBuffer.reset.pushAll 8 bytes).2

/-- The next state. -/
def next : Host.Outcome State Fault Refusal → State
  | .next t => t
  | .fault f => nomatch f
  | .refused _ => State.reset

/-- Instance 0 after an instruction. -/
def run (i : Instr) (s : State) : Engine := (next (exec i s)).engine0

/-- What an instruction shows. -/
def shows (i : Instr) (s : State) : List Obs := (next (exec i s)).trace.map (·.2)

/-- Instance 0 in a state of the Master Engine, `txn_address` = 0xA0, with a sample waiting (section 6). -/
def engineAt (m : MState) (k : MKind) (st : Byte) (f : Engine → Engine := id) : State :=
  start fun e => f { e with mstate := m, mKind := k, txnAddress := 0xA0, port := { e.port with mstatus := st } }

/-- Instance 0 as a target with both callbacks registered (section 7), a byte waiting in SDATA. -/
def targetAt (sdata : Byte) (rx tx : List Byte) : State :=
  start fun e => { e with targetEnabled := true, onReceive := 7, onRequest := 9, targetRx := holding rx, targetTx := holding tx,
                          port := { e.port with sdata := sdata, sctrla := 0xE1 } }

/-! ## WellFormed: an ill-formed term for each check (R110) -/

theorem test_illformed_tBuserr : (Instr.tBuserr 0x0F3).wf = false := by decide
theorem test_illformed_tStop : (Instr.tStop 0x041).wf = false := by decide
theorem test_illformed_tAddrW : (Instr.tAddrW 0x043).wf = false := by decide
theorem test_illformed_tAddrR : (Instr.tAddrR 0x041).wf = false := by decide
theorem test_illformed_tDataRx : (Instr.tDataRx 0x082).wf = false := by decide
theorem test_illformed_tDataReq : (Instr.tDataReq 0x192).wf = false := by decide
theorem test_illformed_tNack : (Instr.tNack 0x092).wf = false := by decide
theorem test_illformed_tIllegal : (Instr.tIllegal 0x080).wf = false := by decide

/-! ## Decode: words written out (R100, R101, EN1 to EN22; KD1 to KD9; R120, R121) -/

theorem test_decode_stream :
    decodeTableWord 40 0x0100000050 = some (.beginTransmission 0x50) ∧
    decodeTableWord 40 0x02000000A5 = some (.write 0xA5) ∧
    decodeTableWord 40 0x0300000001 = some (.endTransmission true) ∧
    decodeTableWord 40 0x0400010550 = some (.request 0x50 5 true) ∧
    decodeTableWord 40 0x040000FF7F = some (.request 0x7F 255 false) ∧
    decodeTableWord 40 0x0500000000 = some .available ∧
    decodeTableWord 40 0x0600000000 = some .read ∧
    decodeTableWord 40 0x0700000000 = some .peek ∧
    decodeTableWord 40 0x0800000000 = some .flush := by decide

theorem test_decode_session :
    decodeTableWord 40 0x1000000000 = some .enableMaster ∧
    decodeTableWord 40 0x110000FEC2 = some (.enableTarget 0x42 true 0xFE) ∧
    decodeTableWord 40 0x1200000000 = some .disableMaster ∧
    decodeTableWord 40 0x1300000000 = some .disableTarget := by decide

theorem test_decode_configuration :
    decodeTableWord 40 0x20000186A0 = some (.setClock 100000) ∧
    decodeTableWord 40 0x2100000000 = some .getIncoming ∧
    decodeTableWord 40 0x2200000007 = some (.onReceive 7) ∧
    decodeTableWord 40 0x2300000000 = some (.onRequest 0) ∧
    decodeTableWord 40 0x2400061A80 = some (.calcBaud 400000) := by decide

theorem test_decode_pins_and_callback :
    decodeTableWord 40 0x2800000302 = some (.selectPins 2 3) ∧
    decodeTableWord 40 0x2900000001 = some (.swapPins 1) ∧
    decodeTableWord 40 0x2A00000000 = some .pullups ∧
    decodeTableWord 40 0x3000000000 = some .cbReturn := by decide

/-- KD1 to KD9. -/
theorem test_decode_keys :
    ([0x040, 0x060, 0x042, 0x140, 0x050] : List Key).all (fun k => decodeKey k == .tStop k) = true ∧
    ([0x041, 0x061, 0x161, 0x071] : List Key).all (fun k => decodeKey k == .tAddrW k) = true ∧
    ([0x043, 0x063, 0x163] : List Key).all (fun k => decodeKey k == .tAddrR k) = true ∧
    ([0x080, 0x0A0, 0x0B0, 0x081, 0x180] : List Key).all (fun k => decodeKey k == .tDataRx k) = true ∧
    ([0x082, 0x0A2, 0x0B2, 0x092, 0x182, 0x1A2, 0x1A3] : List Key).all (fun k => decodeKey k == .tDataReq k) = true ∧
    ([0x192, 0x1B2, 0x193, 0x1B3] : List Key).all (fun k => decodeKey k == .tNack k) = true ∧
    ([0x000, 0x020, 0x001, 0x0C0, 0x0C1, 0x0E3, 0x100] : List Key).all (fun k => decodeKey k == .tIllegal k) = true ∧
    ([0x004, 0x008, 0x00C, 0x044, 0x084, 0x0A8, 0x1B6, 0x0C4] : List Key).all (fun k => decodeKey k == .tBuserr k) = true := by
  decide

/-- R120 and R121, each code in its own register. -/
theorem test_decode_codes :
    decode (.masterCode 0x01) = some .mRepstart ∧ decode (.masterCode 0x02) = some .mAckRecv ∧
    decode (.masterCode 0x03) = some .mStop ∧ decode (.masterCode 0x04) = some .mNackHold ∧
    decode (.masterCode 0x07) = some .mNackStop ∧ decode (.masterCode 0x06) = none ∧
    decode (.targetCode 0x02) = some .tWaitStart ∧ decode (.targetCode 0x03) = some .tAckResponse ∧
    decode (.targetCode 0x06) = some .tNackWaitStart ∧ decode (.targetCode 0x07) = none ∧
    decodeTableWord 8 0x01 = some .mRepstart ∧ decodeTableWord 8 0x06 = some .tNackWaitStart := by decide

/-- RF1 and RF2. -/
theorem test_decode_unknown_opcodes :
    ([0x0000000000, 0x0900000000, 0x1400000000, 0x2500000000, 0x2B00000000, 0x3100000000, 0xFF00000000] :
      List CommandWord).all (fun w => decodeCommand w == .refuse .unknownOpcode) = true := by decide

/-- RF3 to RF9. -/
theorem test_decode_reserved_bits :
    ([0x0100000080, 0x0300000002, 0x0400020550, 0x0400000080, 0x0500000001, 0x1100010042, 0x0200000100] :
      List CommandWord).all (fun w => decodeCommand w == .refuse .reservedBits) = true := by decide

/-! ## Ring buffers (RB2 to RB12) and the baud calculator -/

/-- RB2 and RB3. -/
theorem test_push_until_full :
    ((RingBuffer.reset.pushAll 8 [1, 2, 3, 4, 5, 6, 7, 8]).1 = 7) ∧ (holding [1, 2, 3, 4, 5, 6, 7]).available 8 = 7 ∧
    (holding [1, 2, 3, 4, 5, 6, 7]).isFull 8 = true := by decide

/-- RB11: N = 5, not a power of two. -/
theorem test_push_wraps :
    ((RingBuffer.mk ⟨[]⟩ 4 1).tryPush 5 0x77).1 = true ∧ ((RingBuffer.mk ⟨[]⟩ 4 1).tryPush 5 0x77).2.head = 0 ∧
    (((RingBuffer.mk ⟨[]⟩ 4 1).tryPush 5 0x77).2.tryPush 5 0x78).1 = false := by decide

/-- RB12: N = 256. -/
theorem test_available_at_the_top :
    (RingBuffer.mk ⟨[]⟩ 255 1).available 256 = 254 ∧ ((RingBuffer.mk ⟨[]⟩ 255 1).tryPush 256 1).2.head = 0 := by decide

/-- Writing the value an unlisted cell reads as removes the entry, and entries stay in rising order. -/
theorem test_memory_is_canonical :
    ((Memory.mk [(1, 5), (4, 6)]).write 3 9).cells = [(1, 5), (3, 9), (4, 6)] ∧
    ((Memory.mk [(1, 5), (4, 6)]).write 4 0).cells = [(1, 5)] := by decide

/-- BD1, BD3, BD7, BD8, BD10, BD11, BD14. -/
theorem test_calc_baud_P0 :
    calcBaud .reference 100000 = 67 ∧ calcBaud .reference 100001 = 73 ∧ calcBaud .reference 800000 = 4 ∧
    calcBaud .reference 800001 = 2 ∧ calcBaud .reference 2000000 = 1 ∧ calcBaud .reference 4294967295 = 1 ∧
    calcBaud .reference 29000 = 255 := by decide

/-- BD18: table B. -/
theorem test_calc_baud_table_B : calcBaud { Params.reference with cpuClockHz := 24000000 } 100000 = 105 := by decide

/-! ## Host commands (sections 8 and 9) -/

/-- ST1. -/
theorem test_begin :
    run (.beginTransmission 0x50) (start fun e => { e with masterTx := holding [9] }) =
      { (start fun e => { e with masterTx := holding [9] }).engine0 with
        txnAddress := 0xA0, masterTx := { holding [9] with head := 0, tail := 0 } } := by decide

/-- ST2: the eighth WRITE. -/
theorem test_write_full :
    shows (.write 8) (start fun e => { e with masterTx := holding [1, 2, 3, 4, 5, 6, 7] }) = [.respond 0] := by decide

/-- ST5. -/
theorem test_write_in_callback :
    (run (.write 0xAA) (start fun e => { e with cbState := .req })).targetTx = holding [0xAA] ∧
    (run (.write 0xAA) (start fun e => { e with cbState := .req })).masterTx = .reset := by decide

/-- P1: END starts a write and does not respond yet. -/
theorem test_end :
    (run (.endTransmission true) State.reset).mstate = .start ∧ shows (.endTransmission true) State.reset = [] := by decide

/-- P2: REQUEST 0x50, 5, 1. -/
theorem test_request :
    (run (.request 0x50 5 true) State.reset).txnAddress = 0xA0 ∧ (run (.request 0x50 5 true) State.reset).mKind = .read ∧
    (run (.request 0x50 5 true) State.reset).mCount = 5 := by decide

/-- ST4. -/
theorem test_available :
    shows .available (start fun e => { e with masterRx := holding [0x11, 0x22] }) = [.respond 2] := by decide
theorem test_peek : shows .peek (start fun e => { e with masterRx := holding [0x11, 0x22] }) = [.respond 0x0011] := by decide
theorem test_read_empty : shows .read State.reset = [.respond 0xFFFF] := by decide

/-- ST6. -/
theorem test_read_in_callback :
    shows .read (start fun e => { e with cbState := .rxStop, targetRx := holding [0x11], masterRx := holding [0x99] }) =
      [.respond 0x0011] := by decide

/-- SC9. -/
theorem test_flush :
    shows .flush (start fun e => { e with masterEnabled := true, targetEnabled := true,
                                          port := { e.port with mctrla := 0x01, sctrla := 0xE1 } }) =
      [.portRead .mctrla 0x01, .portWrite .mctrla 0x00, .portWrite .mctrla 0x01, .portRead .sctrla 0xE1,
       .portWrite .sctrla 0x00, .portWrite .sctrla 0xE1, .portWrite .mstatus 0x01, .respond 0] := by decide

/-- SC1. -/
theorem test_enable_master :
    shows .enableMaster State.reset = [.pinsReset, .portWrite .mctrla 0x01, .portWrite .mstatus 0x01, .respond 0] := by decide

/-- SC6. -/
theorem test_enable_master_shared :
    (run .enableMaster (shared fun e => { e with targetEnabled := true })).masterEnabled = false ∧
    (run .enableMaster (shared fun e => { e with targetEnabled := true })).lastFault = .roleAlreadyActive := by decide

/-- SC5. -/
theorem test_enable_target :
    (run (.enableTarget 0x42 true 0xFE) (start fun e => { e with masterEnabled := true })).port.saddr = 0x85 ∧
    (run (.enableTarget 0x42 true 0xFE) (start fun e => { e with masterEnabled := true })).port.sctrla = 0xE1 ∧
    (run (.enableTarget 0x42 true 0xFE) (start fun e => { e with masterEnabled := true })).targetEnabled = true := by decide

/-- SC4. -/
theorem test_enable_target_shared :
    shows (.enableTarget 0x42 true 0xFE) (shared fun e => { e with masterEnabled := true }) = [.respond 0] := by decide

/-- SC7. -/
theorem test_disable_master :
    (run .disableMaster (start fun e => { e with masterEnabled := true, masterTx := holding [1, 2] })).masterTx.head = 0 ∧
    (run .disableMaster (start fun e => { e with masterEnabled := true, masterTx := holding [1, 2] })).masterEnabled = false := by
  decide

/-- SC8. -/
theorem test_disable_target :
    shows .disableTarget (start fun e => { e with targetEnabled := true }) =
      [.portWrite .sctrla 0x00, .portWrite .saddr 0x00, .portWrite .saddrmask 0x00, .respond 0] := by decide

/-- P1: SET_CLOCK 100000 after ENABLE_MASTER. -/
theorem test_set_clock :
    shows (.setClock 100000) (start fun e => { e with port := { e.port with mctrla := 0x01 } }) =
      [.portRead .mbaud 0, .portRead .mctrla 0x01, .portWrite .mctrla 0x00, .portWrite .mbaud 0x43, .portRead .ctrla 0x00,
       .portWrite .ctrla 0x00, .portWrite .mctrla 0x01, .portWrite .mstatus 0x01, .respond 0] := by decide

/-- RF12. -/
theorem test_set_clock_zero : shows (.setClock 0) State.reset = [.refused .zeroFrequency] := by decide

/-- P3: GET_INCOMING after an address match. -/
theorem test_get_incoming :
    shows .getIncoming (start fun e => { e with incomingAddress := 0x84, incomingValid := true }) = [.respond 0x0084] := by
  decide

/-- ST8. -/
theorem test_on_receive : (run (.onReceive 9) (start fun e => { e with onReceive := 7 })).onReceive = 9 := by decide
theorem test_on_request : (run (.onRequest 0) (start fun e => { e with onRequest := 9 })).onRequest = 0 := by decide

/-- EN18. -/
theorem test_calc_baud : shows (.calcBaud 400000) State.reset = [.respond 0x000E] := by decide

/-- R274: the collaborator's answer is the response, and no engine state changes. -/
theorem test_select_pins : run (.selectPins 2 3) State.reset = State.reset.engine0 := by rfl
theorem test_swap_pins : shows (.swapPins 1) State.reset = [.swapPinSet 1, .respond 0] := by decide
theorem test_pullups : shows .pullups State.reset = [.enablePullups, .respond 0] := by decide

/-- ST10 and ST11. -/
theorem test_cb_return_request :
    shows .cbReturn (start fun e => { e with cbState := .rxAddr, onRequest := 9 }) = [.notifyRequest 9] ∧
    (run .cbReturn (start fun e => { e with cbState := .rxAddr, onRequest := 9 })).cbState = .req := by decide
theorem test_cb_return_acknowledge :
    shows .cbReturn (start fun e => { e with cbState := .rxAddr }) = [.portWrite .scmd 0x03] ∧
    (run .cbReturn (start fun e => { e with cbState := .rxAddr })).cbState = .none := by decide

/-- RF11. -/
theorem test_wrong_context : shows .flush (start fun e => { e with cbState := .req }) = [.refused .wrongContext] := by decide

/-! ## Dispatcher branches (section 7) -/

/-- TD1. -/
theorem test_t_buserr :
    (run (.tBuserr 0x084) (targetAt 0 [0x11, 0x22] [0xAA])).targetRx.isEmpty = true ∧
    shows (.tBuserr 0x084) (targetAt 0 [0x11, 0x22] [0xAA]) = [.portRead .sdata 0] := by decide

/-- TD2. -/
theorem test_t_stop :
    shows (.tStop 0x040) (targetAt 0 [0x11, 0x22, 0x33] []) = [.portWrite .sstatus 0x40, .notifyReceive 7 3] ∧
    (run (.tStop 0x040) (targetAt 0 [0x11, 0x22, 0x33] [])).cbState = .rxStop := by decide

/-- TD3. -/
theorem test_t_stop_empty : shows (.tStop 0x060) (targetAt 0 [] []) = [.portWrite .sstatus 0x40] := by decide

/-- TD5. -/
theorem test_t_addr_w :
    (run (.tAddrW 0x061) (targetAt 0x84 [1] [])).incomingAddress = 0x84 ∧
    shows (.tAddrW 0x061) (targetAt 0x84 [1] []) = [.portRead .sdata 0x84, .portWrite .scmd 0x03] := by decide

/-- TD6, up to the first callback. -/
theorem test_t_addr_r :
    shows (.tAddrR 0x063) (targetAt 0x85 [7] []) = [.portRead .sdata 0x85, .notifyReceive 7 1] ∧
    (run (.tAddrR 0x063) (targetAt 0x85 [7] [])).cbState = .rxAddr := by decide

/-- TD6 with nothing received: the request callback comes at once (R219). -/
theorem test_t_addr_r_empty :
    shows (.tAddrR 0x063) (targetAt 0x85 [] []) = [.portRead .sdata 0x85, .notifyRequest 9] := by decide

/-- TD8. -/
theorem test_t_data_rx :
    (run (.tDataRx 0x0A0) (targetAt 0x5A [1, 2, 3, 4, 5, 6] [])).targetRx = holding [1, 2, 3, 4, 5, 6, 0x5A] := by decide

/-- TD9. -/
theorem test_t_data_rx_full :
    shows (.tDataRx 0x0A0) (targetAt 0x5B [1, 2, 3, 4, 5, 6, 7] []) = [.portWrite .scmd 0x06] ∧
    (run (.tDataRx 0x0A0) (targetAt 0x5B [1, 2, 3, 4, 5, 6, 7] [])).targetRx.isEmpty = true := by decide

/-- TD10. -/
theorem test_t_data_req :
    shows (.tDataReq 0x0A2) (targetAt 0 [] [0xAA, 0xBB]) = [.portWrite .sdata 0xAA, .portWrite .scmd 0x03] ∧
    (run (.tDataReq 0x0A2) (targetAt 0 [] [0xAA, 0xBB])).ackMatters = true := by decide

/-- TD11. -/
theorem test_t_data_req_empty : shows (.tDataReq 0x0B2) (targetAt 0 [] []) = [.portWrite .scmd 0x02] := by decide

/-- TD13. -/
theorem test_t_nack :
    shows (.tNack 0x1B2) (targetAt 0 [] [0xCC, 0xDD]) = [.portWrite .scmd 0x02] ∧
    (run (.tNack 0x1B2) (targetAt 0 [] [0xCC, 0xDD])).targetTx.isEmpty = true := by decide

/-- TD14. -/
theorem test_t_illegal : shows (.tIllegal 0x000) (targetAt 0 [1] [2]) = [.portWrite .scmd 0x06] := by decide

/-! ## Command codes (R122 to R129) -/

theorem test_master_codes :
    shows .mRepstart State.reset = [.portWrite .mcmd 0x01] ∧ shows .mAckRecv State.reset = [.portWrite .mcmd 0x02] ∧
    shows .mStop State.reset = [.portWrite .mcmd 0x03] ∧ shows .mNackHold State.reset = [.portWrite .mcmd 0x04] ∧
    shows .mNackStop State.reset = [.portWrite .mcmd 0x07] := by decide

theorem test_target_codes :
    shows .tWaitStart State.reset = [.portWrite .scmd 0x02] ∧ shows .tAckResponse State.reset = [.portWrite .scmd 0x03] ∧
    shows .tNackWaitStart State.reset = [.portWrite .scmd 0x06] := by decide

/-! ## Master Engine steps (section 6) -/

/-- ME1. -/
theorem test_me_start_unknown :
    (engineAt .start .write 0x00).engineStep.engine0.mstate = .idle ∧
    (engineAt .start .write 0x00).engineStep.engine0.lastFault = .busNotReady := by decide

/-- ME5. -/
theorem test_me_wait_bus_read : (engineAt .waitBus .read 0x22).engineStep.engine0.port.maddr = 0xA1 := by decide

/-- ME8. -/
theorem test_me_retry :
    (engineAt .addrWait .write 0x4B).engineStep.engine0.mstate = .waitBus ∧
    (engineAt .addrWait .write 0x4B).engineStep.engine0.lastFault = .arbitrationLost := by decide

/-- ME12. -/
theorem test_me_read_nack_first :
    (engineAt .addrWait .read 0x7B).engineStep.engine0.lastFault = .addressNotAcknowledged ∧
    (engineAt .addrWait .read 0x7B).engineStep.engine0.port.mcmd = 0x03 := by decide

/-- ME16: the count is not returned. -/
theorem test_me_abort :
    (engineAt .data .write 0x6A fun e => { e with mN := 2 }).engineStep.trace.map (·.2) =
      [.portRead .mstatus 0x6A, .respond 0] := by decide

/-- ME18. -/
theorem test_me_data_nack :
    (engineAt .data .write 0x72 fun e => { e with mN := 2 }).engineStep.trace.map (·.2) =
      [.portRead .mstatus 0x72, .portWrite .mcmd 0x03, .respond 2] := by decide

/-- ME19. -/
theorem test_me_send :
    (engineAt .data .write 0x62 fun e => { e with masterTx := holding [0x30] }).engineStep.trace.map (·.2) =
      [.portRead .mstatus 0x62, .portWrite .mdata 0x30] := by decide

/-- ME22. -/
theorem test_me_read_full :
    (engineAt .data .read 0xA2 fun e => { e with masterRx := holding [1, 2, 3, 4, 5, 6, 7], mN := 7, mCount := 9 }
      ).engineStep.trace.map (·.2) = [.portRead .mstatus 0xA2, .portWrite .mcmd 0x07, .respond 7] := by decide

/-- ME24. -/
theorem test_me_read_last :
    (engineAt .data .read 0xA2 fun e => { e with mN := 2, mCount := 3, port := { e.port with mdata := 0xD3 } }
      ).engineStep.trace.map (·.2) =
      [.portRead .mstatus 0xA2, .portRead .mdata 0xD3, .portWrite .mcmd 0x04, .respond 3] := by decide

/-! ## Fetching -/

/-- The first step after reset runs a host command. -/
theorem test_fetch_command :
    (next (step (State.reset.withFetchWord 40 0x1000000000))).engine0.masterEnabled = true := by decide

/-- The first step after reset runs the branch of a key: T_NACK needs `ack_matters` and clears it. -/
theorem test_fetch_key :
    (next (step (State.reset.withFetchWord 16 0x1B2))).trace.map (·.2) =
      [.portRead .sstatus 0xB2, .portWrite .scmd 0x02] := by decide

/-- The first step after reset runs a command code, by a rule that issues it; M_REPSTART none does (R126). -/
theorem test_fetch_codes :
    ([(0x02, 0x02), (0x03, 0x03), (0x04, 0x04), (0x07, 0x07), (0x01, 0x00)] : List (Nat × Byte)).all (fun c =>
      (next (step (State.reset.withFetchWord 8 c.1))).engine0.port.mcmd == c.2) = true ∧
    (next (step (State.reset.withFetchWord 8 0x06))).engine0.port.scmd = 0x06 ∧
    ([0x02, 0x03, 0x06] : List Byte).all (fun c =>
      (next (step (State.reset.place (.targetCode c)))).engine0.port.scmd == c) = true := by decide

/-! ## Witnesses: states and operands that meet the hypotheses of each obligation -/

/-- The storage invariant as a test. -/
def storageOk (s : State) : Bool :=
  s.params.wf && s.hasInst s.sel && [s.engine0, s.engine1].all fun e =>
    e.masterTx.wf s.params.bufN && e.masterRx.wf s.params.bufN && e.targetTx.wf s.params.bufN &&
    e.targetRx.wf s.params.bufN && (s.params.simultaneous || (e.targetTx == .reset && e.targetRx == .reset)) &&
    !e.txnAddress.getLsbD 0

theorem storageInv_of_ok (s : State) (h : storageOk s = true) : s.storageInv := by
  simp only [storageOk, List.all_cons, List.all_nil, Bool.and_eq_true, Bool.or_eq_true, beq_iff_eq,
    Bool.not_eq_true'] at h
  obtain ⟨⟨hp, hs⟩, ⟨⟨⟨⟨⟨a1, a2⟩, a3⟩, a4⟩, a5⟩, a6⟩, ⟨⟨⟨⟨⟨b1, b2⟩, b3⟩, b4⟩, b5⟩, b6⟩, _⟩ := h
  refine ⟨hp, hs, fun i => ?_⟩
  cases i
  · exact ⟨a1, a2, a3, a4, fun hf => a5.resolve_left (by simp [hf]), a6⟩
  · exact ⟨b1, b2, b3, b4, fun hf => b5.resolve_left (by simp [hf]), b6⟩

/-- A run waiting in a callback. -/
def inCallback (c : CbState) : State :=
  start fun e => { e with targetEnabled := true, cbState := c, onReceive := 7, onRequest := 9,
                          port := { e.port with sctrla := 0xE1 } }

/-- A machine with one offer. -/
def offered (s : State) (x : Stimulus) : State := { s with schedule := [x] }

theorem witness_DecodeOfEncodeIsIdentity :
    (Instr.request 0x7F 255 true).wf = true ∧ (Instr.tBuserr 0x1FF).wf = true ∧ (Instr.tNack 0x1B3).wf = true ∧
    Instr.mNackStop.wf = true := by decide

theorem witness_EncodeOfDecodeIsIdentity :
    decode (.command 0x040001FF7F) = some (.request 0x7F 255 true) ∧ decode (.key 0x1FF) = some (.tBuserr 0x1FF) ∧
    decode (.masterCode 0x07) = some .mNackStop ∧ decode (.targetCode 0x06) = some .tNackWaitStart := by decide

theorem witness_KeyPairsSelectTheBranch : (0x1B2 : Key) = BitVec.ofBool true ++ (0xB2 : Byte) := by decide

/-- One admitted offer for each clause. -/
theorem witness_StepRunsTheDecodedInstruction :
    (State.reset.admits (.command .i0 0x1000000000) = true ∧ decode (.command 0x1000000000) = some .enableMaster) ∧
    ((start fun e => { e with port := { e.port with sctrla := 0xE1 } }).admits (.event .i0) = true) ∧
    ((start fun e => { e with mstate := .dataWait }).admits (.engine .i0) = true) := by decide

/-- A state for each way the engine and the branches run a command code. -/
theorem witness_StepRunsTheDecodedInstruction_codes :
    phaseAborted 0x62 = false ∧ mRxNack 0x62 = false ∧ (engineAt .data .write 0x62).eng.masterTx.isEmpty = true ∧
    phaseDone 0xA2 = true ∧ mRxNack 0xA2 = false ∧ (engineAt .addrWait .read 0xA2).eng.mCount = 0 ∧
    phaseAborted 0xA2 = false ∧ (engineAt .data .read 0xA2).eng.masterRx.isFull 8 = false ∧ (0 : Byte) + 1 < 2 ∧
    (State.reset.buf .targetTx).isEmpty = true := by decide

/-- A taken and a refused offer of each kind, and an existing second instance. -/
theorem witness_OffersAreTakenWhenAdmitted :
    State.reset.hasInst .i0 = true ∧ (two id).hasInst .i1 = true ∧ State.reset.params.numInstances = 1 ∧
    State.reset.admits (.engine .i0) = false ∧ (inCallback .req).admits (.event .i0) = false := by decide

theorem witness_RefusedCommandsChangeNothing_opcode :
    State.reset.admits (.command .i0 0xFF00000001) = true ∧
    (0xFF00000001 : CommandWord).extractLsb' 32 8 ∉ ([0x01, 0x02, 0x03, 0x04, 0x05, 0x06, 0x07, 0x08, 0x10, 0x11, 0x12,
      0x13, 0x20, 0x21, 0x22, 0x23, 0x24, 0x28, 0x29, 0x2A, 0x30] : List Byte) := by decide

theorem witness_RefusedCommandsChangeNothing_reserved :
    ∃ r ∈ commandTable, (0x0400020550 : CommandWord).extractLsb' 32 8 = r.opcode ∧
      (0x0400020550 : CommandWord).extractLsb' 0 32 &&& r.format.reserved ≠ 0 :=
  ⟨⟨0x04, .R, fun a => .request (argAddress a) (argHigh a) (a.getLsbD 16)⟩,
    by simp [commandTable, streamRows], by decide, by decide⟩

theorem witness_RefusedCommandsChangeNothing_context :
    isHostCommand .flush = true ∧ inBothContexts .flush = false ∧ Instr.flush ≠ .cbReturn ∧
    (inCallback .rxStop).eng.cbState ≠ .none ∧ State.reset.eng.cbState = .none := by decide

theorem witness_CallbackHoldsForegroundAndEvents :
    State.reset.hasInst .i0 = true ∧ ((inCallback .req).engineOf .i0).cbState ≠ .none ∧
    ((inCallback .req).engineOf .i1).cbState = .none := by decide

/-- Guarded and not guarded, with four buffers and with two. -/
theorem witness_EnableMasterGuardAndEffect :
    State.reset.eng.cbState = .none ∧ State.reset.masterGuard = false ∧
    (start fun e => { e with masterEnabled := true }).masterGuard = true ∧
    (start fun e => { e with targetEnabled := true }).masterGuard = false ∧
    (shared fun e => { e with targetEnabled := true }).masterGuard = true := by decide

theorem witness_EnableTargetGuardAndEffect :
    State.reset.eng.cbState = .none ∧ State.reset.targetGuard = false ∧
    (start fun e => { e with targetEnabled := true }).targetGuard = true ∧
    (start fun e => { e with masterEnabled := true }).targetGuard = false ∧
    (shared fun e => { e with masterEnabled := true }).targetGuard = true := by decide

theorem witness_DisableMasterEffect : (start fun e => { e with masterEnabled := true }).eng.cbState = .none := by decide

theorem witness_DisableTargetEffect :
    (start fun e => { e with targetEnabled := true }).eng.cbState = .none ∧
    (shared fun e => { e with targetEnabled := true }).eng.cbState = .none := by decide

/-- Master logic off and on, four buffers and two. -/
theorem witness_FlushEffect :
    State.reset.eng.cbState = .none ∧ State.reset.eng.port.mctrla.getLsbD 0 = false ∧
    (shared fun e => { e with port := { e.port with mctrla := 0x01 } }).eng.port.mctrla.getLsbD 0 = true := by decide

theorem witness_BeginStoresAddressAndEmptiesMasterTx :
    (start fun e => { e with masterTx := holding [9] }).eng.cbState = .none := by decide

/-- Room and no room, in foreground and in a callback. -/
theorem witness_WriteStoresOneByteOrNone :
    State.reset.storageInv ∧ (start fun e => { e with masterTx := holding [1, 2, 3, 4, 5, 6, 7] }).storageInv ∧
    (start fun e => { e with cbState := .req, targetTx := holding [1, 2, 3, 4, 5, 6] }).storageInv :=
  ⟨storageInv_of_ok _ (by decide), storageInv_of_ok _ (by decide), storageInv_of_ok _ (by decide)⟩

theorem witness_EndAndRequestStartATransaction : State.reset.eng.cbState = .none := by decide

/-- Frequency 0, an unchanged value, a new value with the master logic on and off. -/
theorem witness_SetClockReprogramsOnlyOnChange :
    State.reset.eng.cbState = .none ∧ calcBaud State.reset.params 100000 ≠ State.reset.eng.port.mbaud ∧
    calcBaud State.reset.params 100000 = (start fun e => { e with port := { e.port with mbaud := 67 } }).eng.port.mbaud ∧
    (start fun e => { e with port := { e.port with mctrla := 0x01 } }).eng.port.mctrla.getLsbD 0 = true := by decide

theorem witness_SecondSetClockWritesNothing :
    State.reset.eng.cbState = .none ∧ (100000 : Hertz) ≠ 0 ∧ ∃ t, exec (.setClock 100000) State.reset = .next t :=
  ⟨by decide, by decide, _, rfl⟩

theorem witness_RegistrationReplacesTheHandle : State.reset.eng.cbState = .none := by decide

theorem witness_CalcBaudRespondsTheFormula : State.reset.eng.cbState = .none ∧ (1 : Hertz) ≠ 0 := by decide

/-- Both ends of a band, and the 16 MHz clause. -/
theorem witness_TimingIsBoundedAndMonotoneInABand :
    (100001 : Hertz) ≠ 0 ∧ band (100001 : Hertz).toNat = band (400000 : Hertz).toNat ∧
    Params.reference.cpuClockHz = 16000000 ∧ (100000 : Hertz) ≠ 0 := by decide

theorem witness_PinCallsAreForwarded : State.reset.eng.cbState = .none := by decide

/-- Each callback state, with and without a request callback. -/
theorem witness_CallbackReturnResumesTheRun :
    State.reset.eng.cbState = .none ∧ (inCallback .rxStop).eng.cbState = .rxStop ∧
    ((inCallback .rxAddr).eng.cbState = .rxAddr ∧ (inCallback .rxAddr).eng.onRequest ≠ 0) ∧
    ((start fun e => { e with cbState := .rxAddr }).eng.onRequest = 0) ∧ (inCallback .req).eng.cbState = .req := by decide

/-- Bytes and a callback, bytes and none, no bytes. -/
theorem witness_StopDeliversReceivedBytes :
    (targetAt 0 [1] []).eng.cbState = .none ∧ (targetAt 0 [1] []).eng.onReceive ≠ 0 ∧
    (targetAt 0 [1] []).available .targetRx ≠ 0 ∧ (targetAt 0 [] []).available .targetRx = 0 := by decide

theorem witness_AddressForReadNotifiesThenAcknowledges :
    (targetAt 0 [1] []).eng.cbState = .none ∧ (targetAt 0 [] []).eng.onRequest ≠ 0 ∧ State.reset.eng.onRequest = 0 := by
  decide

/-- Room for one byte more, and no room. -/
theorem witness_ReceivedByteIsStoredOrAllDiscarded :
    (targetAt 0x5A [1, 2, 3, 4, 5, 6] []).storageInv ∧ (targetAt 0x5B [1, 2, 3, 4, 5, 6, 7] []).storageInv :=
  ⟨storageInv_of_ok _ (by decide), storageInv_of_ok _ (by decide)⟩

theorem witness_CommandCodesWriteTheirByte :
    ∃ t, step (offered (engineAt .addrWait .read 0x7B) (.engine .i0)) = .next t ∧
      t.engine0.port.mcmd ≠ (engineAt .addrWait .read 0x7B).engine0.port.mcmd := ⟨_, rfl, by decide⟩

theorem witness_StartAndWaitBusSteps :
    (engineAt .start .write 0x00).eng.mstate = .start ∧ (engineAt .waitBus .read 0x03).eng.mstate = .waitBus ∧
    (0x00 : Byte) &&& 0x03 = 0x00 ∧ (0x03 : Byte) &&& 0x03 = 0x03 := by decide

/-- Waiting, lost, done; and the data wait. -/
theorem witness_WriteAddressWaitAndDataWaitSteps :
    (engineAt .addrWait .write 0x4B).eng.mstate = .addrWait ∧ (engineAt .addrWait .write 0x4B).eng.mKind = .write ∧
    (0x4B : Byte).getLsbD 6 = true ∧ (0x4B : Byte).getLsbD 3 = true ∧ (0x72 : Byte).getLsbD 3 = false ∧
    (engineAt .dataWait .read 0xA2).eng.mstate = .dataWait := by decide

/-- Abort, not acknowledged, a byte to send, nothing to send. -/
theorem witness_WriteDataStep :
    (engineAt .data .write 0x6A).eng.mstate = .data ∧ (engineAt .data .write 0x72).eng.mKind = .write ∧
    (engineAt .data .write 0x62 fun e => { e with masterTx := holding [1] }).eng.masterTx.isEmpty = false ∧
    (engineAt .data .write 0x62).eng.masterTx.isEmpty = true := by decide

theorem witness_ReadAddressWaitStep :
    (engineAt .addrWait .read 0x72).eng.mstate = .addrWait ∧ (engineAt .addrWait .read 0xA2).eng.mKind = .read ∧
    (engineAt .addrWait .read 0xA2).eng.mCount = 0 := by decide

/-- A full buffer, and the last byte of a read. -/
theorem witness_ReadDataStep :
    (engineAt .data .read 0xA2 fun e => { e with masterRx := holding [1, 2, 3, 4, 5, 6, 7] }).storageInv ∧
    (engineAt .data .read 0xA2 fun e => { e with mN := 2, mCount := 3 }).storageInv ∧
    (engineAt .data .read 0xA2).eng.mstate = .data ∧ (engineAt .data .read 0xA2).eng.mKind = .read :=
  ⟨storageInv_of_ok _ (by decide), storageInv_of_ok _ (by decide), by decide, by decide⟩

theorem witness_EngineTransitionTable :
    (∃ t, exec (.endTransmission true) State.reset = .next t ∧ t.eng.mstate ≠ State.reset.eng.mstate) ∧
    State.reset.eng.cbState = .none := ⟨⟨_, rfl, by decide⟩, by decide⟩

/-- The data step of each kind that ends, at the last byte and on a full buffer; and both movers of `mstate` offered. -/
theorem witness_EngineTransitionTable_step :
    (engineAt .data .read 0xA2 fun e => { e with mN := 2, mCount := 3 }).engineStep.eng.mstate = .idle ∧
    (engineAt .data .read 0xA2 fun e => { e with mN := 1, mCount := 3 }).engineStep.eng.mstate = .dataWait ∧
    (∃ t, step (offered (engineAt .start .write 0x00) (.engine .i0)) = .next t ∧ t.engine0.mstate ≠ .start) ∧
    (State.reset.admits (.command .i0 0x0300000001) = true ∧
      decode (.command 0x0300000001) = some (.endTransmission true) ∧ State.reset.engine0.cbState = .none) ∧
    ∃ t, step (offered State.reset (.command .i0 0x0300000001)) = .next t ∧ t.engine0.mstate ≠ .idle :=
  ⟨by decide, by decide, ⟨_, rfl, by decide⟩, by decide, _, rfl, by decide⟩

theorem witness_StorageInvariantAtReset :
    Params.reference.wf = true ∧ { Params.reference with bufN := 2 }.wf = true ∧
    { Params.reference with bufN := 256, numInstances := 2 }.wf = true := by decide

theorem witness_StepKeepsStorageInvariant :
    (offered (targetAt 0x5A [1] []) (.event .i0)).storageInv ∧
    ∃ t, step (offered (targetAt 0x5A [1] []) (.event .i0)) = .next t := ⟨storageInv_of_ok _ (by decide), _, rfl⟩

/-- The role invariant of an enabled target, in a callback. -/
theorem inCallback_roleInv : (inCallback .req).roleInv := by
  intro i
  cases i <;> simp [Engine.roleWf, inCallback, start, State.reset, State.resetWith, Engine.resetWith, State.engineOf,
    Port.zero, Params.reference, isMasterCode, isTargetCode]

theorem witness_StepKeepsRoleInvariant :
    (inCallback .req).roleInv ∧ ∃ t, step (inCallback .req) = .next t := ⟨inCallback_roleInv, _, rfl⟩

theorem witness_TransactionInvariantAtReset : Params.reference.wf = true := by decide

/-- The transaction invariant in the middle of a read. -/
theorem witness_StepKeepsTransactionInvariant :
    (engineAt .data .read 0xA2 fun e => { e with mN := 1, mCount := 3, masterRx := holding [5] }).transactionInv ∧
    ∃ t, step (engineAt .data .read 0xA2 fun e => { e with mN := 1, mCount := 3, masterRx := holding [5] }) = .next t := by
  refine ⟨⟨storageInv_of_ok _ (by decide), fun i => ?_, by decide⟩, _, rfl⟩
  cases i <;> refine ⟨?_, ?_, ?_, ?_⟩ <;> decide

theorem witness_OnlyDataRequestAndNackChangeAckMatters :
    (∃ t, exec (.tDataReq 0x0A2) State.reset = .next t ∧ t.eng.ackMatters ≠ State.reset.eng.ackMatters) ∧
    ∃ t, exec (.tNack 0x1B2) (start fun e => { e with ackMatters := true }) = .next t ∧
      t.eng.ackMatters ≠ (start fun e => { e with ackMatters := true }).eng.ackMatters :=
  ⟨⟨_, rfl, by decide⟩, _, rfl, by decide⟩

theorem witness_InstancesShareNoState :
    (offered (two id) (.command .i1 0x1000000000)).schedule = [.command .i1 0x1000000000] ∧
    InstId.i0 ≠ (Stimulus.command .i1 0x1000000000).inst ∧
    ∃ t, step (offered (two id) (.command .i1 0x1000000000)) = .next t := ⟨rfl, by decide, _, rfl⟩

theorem witness_EveryStepExtendsTheTrace :
    (∃ t, step { State.reset with trace := [(.i0, .refused .reservedBits)] } = .next t) ∧
    { State.reset with trace := [(.i0, .refused .reservedBits)] }.refusalFree = false := ⟨⟨_, rfl⟩, by decide⟩

theorem witness_DispatcherNeverTouchesMasterSide :
    State.reset.params.simultaneous = true ∧ isBranch (.tStop 0x040) = true ∧
    ∃ t, exec (.tStop 0x040) State.reset = .next t := ⟨rfl, rfl, _, rfl⟩

theorem witness_MasterEngineNeverTouchesTargetSide :
    (engineAt .data .write 0x62).eng.mKind = .write ∧ (engineAt .data .read 0xA2).eng.mKind = .read := by decide

/-- Empty, wrapped and full buffers, N = 2 and N = 8. -/
theorem witness_RingBufferRefinesABoundedQueue :
    RingBuffer.reset.wf 2 = true ∧ (RingBuffer.mk ⟨[(7, 1), (3, 2)]⟩ 7 3).wf 8 = false ∧
    (RingBuffer.mk ⟨[(1, 2), (7, 1)]⟩ 2 7).wf 8 = true ∧ (holding [1, 2, 3, 4, 5, 6, 7]).wf 8 = true := by decide

theorem witness_FirstInFirstOut :
    (holding [1, 2, 3]).wf 8 = true ∧ ([1, 2, 3, 4, 5, 6, 7] : List Byte).length ≤ 8 - 1 ∧
    RingBuffer.reset.isEmpty = true := by decide

theorem witness_WriteManyAcceptsWhatFits : (holding [1, 2, 3, 4, 5]).wf 8 = true := by decide

/-- A staged write before its first step, the bus idle and the target acknowledging. -/
theorem witness_AcknowledgedWriteSendsEveryByte :
    (engineAt .start .write 0x41 fun e => { e with masterTx := holding [0x10, 0x20, 0x30] }).storageInv ∧
    phaseDone 0x41 = true ∧ phaseAborted 0x41 = false ∧ mRxNack 0x41 = false ∧ busState 0x41 = .idle ∧
    (engineAt .start .write 0x41).eng.mN = 0 := ⟨storageInv_of_ok _ (by decide), by decide, by decide, by decide, by decide, by decide⟩

theorem witness_AcknowledgedReadStoresEveryByte :
    (engineAt .start .read 0x82 fun e => { e with mCount := 7 }).storageInv ∧
    (engineAt .start .read 0x82 fun e => { e with mCount := 7 }).eng.mCount.toNat ≤ Params.reference.bufN - 1 ∧
    (engineAt .start .read 0x82).eng.masterRx.unread 8 = [] ∧ phaseDone 0x82 = true ∧ phaseAborted 0x82 = false ∧
    mRxNack 0x82 = false ∧ busState 0x82 = .owner :=
  ⟨storageInv_of_ok _ (by decide), by decide, by decide, by decide, by decide, by decide, by decide⟩

/-- An enabled target whose next ten offers are those of the statement. -/
def threeBytes : State :=
  { targetAt 0 [] [] with schedule :=
      [.periph .i0 [(.sstatus, 0x61), (.sdata, 0x84)], .event .i0,
       .periph .i0 [(.sstatus, 0xA0), (.sdata, 0x11)], .event .i0,
       .periph .i0 [(.sstatus, 0xA0), (.sdata, 0x22)], .event .i0,
       .periph .i0 [(.sstatus, 0xA0), (.sdata, 0x33)], .event .i0,
       .periph .i0 [(.sstatus, 0x40)], .event .i0] }

theorem witness_ThreeReceivedBytesNotifyOnce :
    threeBytes.storageInv ∧ threeBytes.hasInst .i0 = true ∧ threeBytes.deliverable .i0 = true ∧
    4 ≤ threeBytes.params.bufN ∧ (threeBytes.engineOf .i0).onReceive ≠ 0 ∧
    ((threeBytes.engineOf .i0).buffer (BufName.targetRx.resolve threeBytes.params.simultaneous)).isEmpty = true ∧
    threeBytes.schedule =
      [.periph .i0 [(.sstatus, 0x61), (.sdata, 0x84)], .event .i0,
       .periph .i0 [(.sstatus, 0xA0), (.sdata, 0x11)], .event .i0,
       .periph .i0 [(.sstatus, 0xA0), (.sdata, 0x22)], .event .i0,
       .periph .i0 [(.sstatus, 0xA0), (.sdata, 0x33)], .event .i0,
       .periph .i0 [(.sstatus, 0x40)], .event .i0] ++ [] :=
  ⟨storageInv_of_ok _ (by decide), by decide, by decide, by decide, by decide, by decide, rfl⟩

/-- User code that reads all it was given, or stages a reply of one byte. -/
def drain : UserCode := fun _ v =>
  match v.argument with
  | some _ => v.received.map fun _ => .read
  | none => [.getIncoming, .write v.incoming]

/-- A receive callback just called with two bytes, its two reads and its return offered next, the peripheral moving in
between. -/
def calledBack : State :=
  { targetAt 0 [0x11, 0x22] [] with
    engine0 := { (targetAt 0 [0x11, 0x22] []).engine0 with cbState := .rxAddr },
    trace := [(.i0, .notifyReceive 7 2)],
    schedule := [.command .i0 0x0600000000, .periph .i0 [(.sstatus, 0x00)], .command .i0 0x0600000000,
      .command .i0 0x3000000000, .event .i0] }

theorem calledBack_calls : calledBack.calls drain := by
  intro i handle argument h
  cases i
  · obtain ⟨rfl, rfl⟩ : (7 : Handle) = handle ∧ some (2 : Byte) = argument := by
      have e : calledBack.called .i0 = some (7, some 2) := by decide
      simpa using e.symm.trans h
    decide
  · have e : calledBack.called .i1 = none := by decide
    simp [e] at h

theorem witness_CallbackCodeRunsToItsReturn :
    calledBack.hasInst .i0 = true ∧ calledBack.calls drain ∧ calledBack.called .i0 = some (7, some 2) ∧
    calledBack.schedule = [.command .i0 0x0600000000, .periph .i0 [(.sstatus, 0x00)], .command .i0 0x0600000000] ++
      .command .i0 (hostWord .cbReturn) :: [.event .i0] ∧
    .command .i0 (hostWord .cbReturn) ∉ ([.command .i0 0x0600000000, .periph .i0 [(.sstatus, 0x00)],
      .command .i0 0x0600000000] : List Stimulus) :=
  ⟨by decide, calledBack_calls, by decide, by decide, by decide⟩

/-- The premise fails when the offers are not the code's: one read and the return. -/
theorem test_calls_refuses_other_code :
    ¬({ calledBack with schedule := [.command .i0 0x0600000000, .command .i0 0x3000000000] } : State).calls drain :=
  fun h => absurd (h .i0 7 (some 2) (by decide)) (by decide)

end Sys2Proof.Tests
end

section
/-! PROOFS. What one step can be, said once, and the elimination rules of the shared operations with two outcomes. -/

namespace Sys2Proof.Machine

/-! ## Steps -/

/-- The state in which an admitted offer for instance `i` is handled: the offer taken, the engine selected. -/
def State.taking (s : State) (i : InstId) (rest : List Stimulus) : State := { s with schedule := rest, sel := i }

/-- Everything a step from `s` to `t` can be (R77, R78, R132): one case per kind of offer, and the two in which nothing
runs. -/
inductive StepCase (s t : State) : Prop where
  | waits (hsched : s.schedule = []) (ht : t = s)
  | drops (x : Stimulus) (rest : List Stimulus) (hsched : s.schedule = x :: rest) (hadm : s.admits x = false)
      (ht : t = { s with schedule := rest })
  | refuses (i : InstId) (w : CommandWord) (r : RefuseReason) (rest : List Stimulus)
      (hsched : s.schedule = .command i w :: rest) (hadm : s.admits (.command i w) = true)
      (hdec : decodeCommand w = .refuse r) (ht : t = (s.taking i rest).refuse r)
  | command (i : InstId) (w : CommandWord) (ins : Instr) (rest : List Stimulus)
      (hsched : s.schedule = .command i w :: rest) (hadm : s.admits (.command i w) = true)
      (hdec : decodeCommand w = .ok ins) (hexec : exec ins (s.taking i rest) = .next t)
  | engine (i : InstId) (rest : List Stimulus) (hsched : s.schedule = .engine i :: rest)
      (hadm : s.admits (.engine i) = true) (ht : t = (s.taking i rest).engineStep)
  | event (i : InstId) (rest : List Stimulus) (hsched : s.schedule = .event i :: rest)
      (hadm : s.admits (.event i) = true)
      (hexec : exec (decodeKey (s.taking i rest).dispatchKey) (s.taking i rest).enterEvent = .next t)
  | periph (i : InstId) (writes : List (PeriphReg × Byte)) (rest : List Stimulus)
      (hsched : s.schedule = .periph i writes :: rest) (hadm : s.admits (.periph i writes) = true)
      (ht : t = (s.taking i rest).periphStep writes)

theorem step_of_fetch_done {s t u : State} (hf : s.fetch = .done u) (h : step s = .next t) : t = u := by
  simp only [step, hf, Host.Outcome.next.injEq] at h
  exact h.symm

theorem step_of_fetch_run {s t u : State} {i : Instr} (hf : s.fetch = .run i u) (h : step s = .next t) :
    exec i u = .next t := by
  simpa only [step, hf] using h

theorem step_cases {s t : State} (h : step s = .next t) : StepCase s t := by
  rcases s.fetch_cases with ⟨hs, hf⟩ | ⟨x, rest, hs, ⟨ha, hf⟩ | ⟨ha, hf⟩⟩
  · exact .waits hs (step_of_fetch_done hf h)
  · cases x with
    | command i w =>
      cases hd : decodeCommand w with
      | ok ins =>
        refine .command i w ins rest hs ha hd (step_of_fetch_run (hf.trans ?_) h)
        simp only [State.take, State.fetchCommand, hd]; rfl
      | refuse r =>
        refine .refuses i w r rest hs ha hd (step_of_fetch_done (hf.trans ?_) h)
        simp only [State.take, State.fetchCommand, hd]; rfl
    | engine i => exact .engine i rest hs ha (step_of_fetch_done hf h)
    | event i => exact .event i rest hs ha (step_of_fetch_run hf h)
    | periph i ws => exact .periph i ws rest hs ha (step_of_fetch_done hf h)
  · exact .drops x rest hs ha (step_of_fetch_done hf h)

/-- Only an offer to an existing engine is admitted (R318). -/
theorem hasInst_of_admits {s : State} {x : Stimulus} (h : s.admits x = true) : s.hasInst x.inst = true := by
  cases x <;> simp only [State.admits, Bool.and_eq_true] at h
  case command => exact h.1
  case engine => exact h.1.1
  case event => exact h.1
  case periph => exact h

/-- A word at the command port never spells a dispatcher branch (R101). -/
theorem isBranch_of_decodeCommand {w : CommandWord} {i : Instr} (h : decodeCommand w = .ok i) : isBranch i = false := by
  have hrows : ∀ r ∈ commandTable, ∀ a, isBranch (r.build a) = false := by
    simp [commandTable, streamRows, sessionRows, configurationRows, isBranch, encode]
  unfold decodeCommand at h
  split at h
  · cases h
  · rename_i r hr
    split at h
    · cases h; exact hrows r (List.mem_of_find?_eq_some hr) _
    · cases h

/-! ## Operations with two outcomes -/

/-- A foreground-only command is refused in a callback and runs otherwise (R275). -/
theorem State.inForeground_elim {P : State → Prop} {s : State} {f : State → State}
    (hrefuse : P (s.refuse .wrongContext)) (hrun : s.eng.cbState = .none → P (f s)) : P (s.inForeground f) := by
  by_cases h : s.eng.cbState = .none
  · rw [s.inForeground_run f h]; exact hrun h
  · rw [s.inForeground_refuse f h]; exact hrefuse

/-- `deliver_rx` suspends the run with a registered handle, or discards and goes on (R217). -/
theorem State.deliverRx_elim {P : State → Prop} {s : State} {k : CbState} {f : State → State}
    (hnotify : s.eng.onReceive ≠ 0 → ∀ c, P (s.notifyReceive k c)) (hdiscard : P (f (s.discard .targetRx))) :
    P (s.deliverRx k f) := by
  rcases s.deliverRx_cases k f with ⟨_, hr, e⟩ | ⟨_, e⟩ <;> rw [e]
  · exact hnotify hr _
  · exact hdiscard

/-- The request half of a run calls a registered handle, or acknowledges (R219). -/
theorem State.requestPhase_elim {P : State → Prop} {s : State}
    (hnotify : s.eng.onRequest ≠ 0 → P s.notifyRequest) (hack : P s.acknowledgeAndEnd) : P s.requestPhase := by
  rcases s.requestPhase_cases with ⟨hr, e⟩ | ⟨_, e⟩ <;> rw [e]
  · exact hnotify hr
  · exact hack

/-- A push raises the ghost, or stores (R144). -/
theorem State.tryPush_elim {P : State → Prop} {s : State} {b : BufName} {v : Byte}
    (hraise : P (s.raise .localBufferFull)) (hstore : P (s.setBuf b ((s.buf b).tryPush s.params.bufN v).2)) :
    P (s.tryPush b v).2 := by
  rcases s.tryPush_cases b v with ⟨_, e⟩ | ⟨hf, e⟩ <;> rw [e]
  · exact hraise
  · simpa [RingBuffer.tryPush, hf] using hstore

/-- A pop changes nothing, or takes a byte (R145). -/
theorem State.pop_elim {P : State → Prop} {s : State} {b : BufName}
    (hempty : P s) (htake : P (s.setBuf b ((s.buf b).pop s.params.bufN).2)) : P (s.pop b).2 := by
  rcases s.pop_cases b with ⟨_, e⟩ | ⟨hf, e⟩ <;> rw [e]
  · exact hempty
  · simpa [RingBuffer.pop, hf] using htake

/-- CB_RETURN resumes the run where the callback suspended it (R278). -/
theorem exec_cbReturn_elim {P : State → Prop} {s t : State}
    (hnone : s.eng.cbState = .none → P (s.refuse .wrongContext))
    (hstop : s.eng.cbState = .rxStop → P (s.discard .targetRx).endRun)
    (haddr : s.eng.cbState = .rxAddr → P (s.discard .targetRx).requestPhase)
    (hreq : s.eng.cbState = .req → P s.acknowledgeAndEnd) (he : exec .cbReturn s = .next t) : P t := by
  simp only [exec, execCbReturn] at he
  split at he <;> cases he
  · exact hnone ‹_›
  · exact hstop ‹_›
  · exact haddr ‹_›
  · exact hreq ‹_›

/-- A property of both engines is one of the selected and of the other. -/
theorem State.forall_engineOf (s : State) (P : Engine → Prop) :
    (∀ i, P (s.engineOf i)) ↔ P s.eng ∧ P s.otherEngine := by
  constructor
  · intro h; exact ⟨h s.sel, h s.sel.other⟩
  · rintro ⟨he, ho⟩ i
    rw [s.engineOf_cases i]
    split
    · exact he
    · exact ho

end Sys2Proof.Machine
end

section
/-! PROOFS. Instructions and Master Engine steps are chains of the named operations. So a property of states that each
operation keeps is kept by whatever is built from them; this is said once, for any property. -/

namespace Sys2Proof.Machine

/-! ## The operations -/

/-- Port registers that are neither a control register, a target address register nor a command register: R41 to R52
without MCTRLA, SCTRLA, SADDR, SADDRMASK, MCMD and SCMD. -/
def PortReg.isData : PortReg → Bool
  | .ctrla | .mstatus | .mbaud | .maddr | .mdata | .sstatus | .sdata => true
  | .mctrla | .mcmd | .sctrla | .scmd | .saddr | .saddrmask => false

/-- The property is kept by every operation that leaves the session alone: its flags, addresses, handles, control
registers, `cb_state` and `ack_matters`. -/
structure KeptByQuiet (P : State → Prop) : Prop where
  emit {s} (o : Obs) : P s → P (s.emit o)
  draw {s} (n : Nat) : P s → P { s with draws := n }
  raise {s} (c : Condition) : P s → P (s.raise c)
  transaction {s} (m : MState) (k : MKind) (stop : Bool) (c n : Byte) :
    P s → P (s.setEng { s.eng with mstate := m, mKind := k, mSendStop := stop, mCount := c, mN := n })
  txnAddress {s} (a : Address7) : P s → P (s.setEng { s.eng with txnAddress := shiftedAddress a })
  incoming {s} (a : Byte) : P s → P (s.setEng { s.eng with incomingAddress := a, incomingValid := true })
  writeData {s} (r : PortReg) (v : Byte) : r.isData = true → P s → P (s.writePort r v)
  masterCommand {s} (c : MasterCommand) : P s → P (s.masterCommand c)
  targetCommand {s} (c : TargetCommand) : P s → P (s.targetCommand c)
  periphStep {s} (ws : List (PeriphReg × Byte)) : P s → P (s.periphStep ws)
  setBuf {s} (b : BufName) {rb : RingBuffer} :
    ((s.buf b).wf s.params.bufN = true → rb.wf s.params.bufN = true) → P s → P (s.setBuf b rb)

/-- The property is also kept by the operations on the session, `ack_matters` apart. -/
structure KeptBySession (P : State → Prop) : Prop extends KeptByQuiet P where
  session {s} (master target : Bool) (own : Byte) (receive request : Handle) (k : CbState) :
    P s → P (s.setEng { s.eng with masterEnabled := master, targetEnabled := target, targetAddress := own,
                                   onReceive := receive, onRequest := request, cbState := k })
  writePort {s} (r : PortReg) (v : Byte) : P s → P (s.writePort r v)

section
variable {P : State → Prop} {s t : State}

theorem keeps_ite {c : Prop} [Decidable c] (hs : P s) (ht : P t) : P (if c then s else t) := by
  split <;> assumption

namespace KeptByQuiet
variable (hP : KeptByQuiet P)
include hP

theorem respond (v : Response) (h : P s) : P (s.respond v) := hP.emit _ h
theorem refuse (r : RefuseReason) (h : P s) : P (s.refuse r) := hP.emit _ h
theorem noteRead (r : PortReg) (h : P s) : P (s.noteRead r) := hP.emit _ h
theorem latchIncoming (h : P s) : P s.latchIncoming := hP.incoming _ (hP.noteRead _ h)

theorem rewind (b : BufName) (h : P s) : P (s.rewind b) := hP.setBuf b (RingBuffer.rewind_wf _ _) h
theorem discard (b : BufName) (h : P s) : P (s.discard b) := hP.setBuf b (RingBuffer.discard_wf _ _) h
theorem tryPush (b : BufName) (v : Byte) (h : P s) : P (s.tryPush b v).2 :=
  State.tryPush_elim (hP.raise _ h) (hP.setBuf b (RingBuffer.tryPush_wf _ _ v) h)
theorem pop (b : BufName) (h : P s) : P (s.pop b).2 :=
  State.pop_elim h (hP.setBuf b (RingBuffer.pop_wf _ _) h)

theorem goto (m : MState) (h : P s) : P (s.goto m) := hP.transaction _ _ _ _ _ h
theorem setCount (n : Byte) (h : P s) : P (s.setCount n) := hP.transaction _ _ _ _ _ h
theorem forceStop (h : P s) : P s.forceStop := hP.transaction _ _ _ _ _ h
theorem startTransaction (k : MKind) (c : Byte) (stop : Bool) (h : P s) : P (s.startTransaction k c stop) :=
  hP.transaction _ _ _ _ _ h
theorem finish (v : Response) (h : P s) : P (s.finish v) := hP.goto _ (hP.respond v h)
theorem abort (st : Byte) (h : P s) : P (s.abort st) := hP.finish _ (hP.raise _ h)

theorem inForeground {f : State → State} (h : P s) (hf : P (f s)) : P (s.inForeground f) :=
  State.inForeground_elim (hP.refuse _ h) fun _ => hf

/-! ## Master Engine steps -/

theorem stepStart (st : Byte) (h : P s) : P (s.stepStart st) :=
  keeps_ite (hP.finish _ (hP.raise _ h)) (hP.goto _ h)

theorem stepWaitBus (st : Byte) (h : P s) : P (s.stepWaitBus st) :=
  keeps_ite h (hP.goto _ (hP.writeData _ _ rfl h))

theorem finishWrite (h : P s) : P s.finishWrite := hP.finish _ (keeps_ite (hP.masterCommand _ h) h)
theorem finishRead (h : P s) : P s.finishRead := hP.finish _ (hP.masterCommand _ h)

theorem stepAddrWaitWrite (st : Byte) (h : P s) : P (s.stepAddrWaitWrite st) :=
  keeps_ite h (keeps_ite (hP.goto _ (hP.raise _ h)) (hP.goto _ (hP.setCount _ h)))

theorem stepAddrWaitRead (st : Byte) (h : P s) : P (s.stepAddrWaitRead st) :=
  keeps_ite h (keeps_ite (hP.finish _ (hP.masterCommand _ (hP.raise _ h)))
    (keeps_ite (hP.finishRead h) (hP.goto _ (hP.setCount _ h))))

theorem sendNext (h : P s) : P s.sendNext := by
  have hpop := hP.pop .masterTx h
  unfold State.sendNext
  split <;> rename_i hp <;> rw [hp] at hpop
  · exact hP.goto _ (hP.setCount _ (hP.writeData _ _ rfl hpop))
  · exact hP.finishWrite hpop

theorem stepDataWrite (st : Byte) (h : P s) : P (s.stepDataWrite st) :=
  have hstop := hP.forceStop h
  keeps_ite (hP.abort st h) (keeps_ite (hP.finishWrite (keeps_ite (hP.raise _ hstop) hstop)) (hP.sendNext h))

theorem receiveNext (h : P s) : P s.receiveNext :=
  have hn := hP.setCount _ (hP.tryPush .masterRx _ (hP.noteRead .mdata h))
  keeps_ite (hP.goto _ (hP.masterCommand _ hn)) (hP.finishRead hn)

theorem stepDataRead (st : Byte) (h : P s) : P (s.stepDataRead st) :=
  keeps_ite (hP.abort st h) (keeps_ite (hP.finishRead (hP.forceStop (hP.raise _ h))) (hP.receiveNext h))

theorem stepDataWait (st : Byte) (h : P s) : P (s.stepDataWait st) := keeps_ite (hP.goto _ h) h

theorem engineStep (h : P s) : P s.engineStep := by
  have ht := hP.noteRead .mstatus h
  unfold State.engineStep
  split
  · exact h
  · exact hP.stepStart _ ht
  · exact hP.stepWaitBus _ ht
  · exact hP.stepAddrWaitWrite _ ht
  · exact hP.stepAddrWaitRead _ ht
  · exact hP.stepDataWrite _ ht
  · exact hP.stepDataRead _ ht
  · exact hP.stepDataWait _ ht

end KeptByQuiet
end

/-! ## Instructions -/

/-- The instructions that leave the session and `ack_matters` alone. -/
def isQuiet : Instr → Bool
  | .flush | .enableMaster | .enableTarget _ _ _ | .disableMaster | .disableTarget | .setClock _ | .onReceive _
  | .onRequest _ | .cbReturn | .tStop _ | .tAddrR _ | .tDataReq _ | .tNack _ => false
  | _ => true

section
variable {P : State → Prop} {s t : State}

theorem KeptByQuiet.keeps_exec (hP : KeptByQuiet P) {i : Instr} (hi : isQuiet i = true) (h : P s)
    (he : exec i s = .next t) : P t := by
  cases i with
  | beginTransmission a => cases he; exact hP.inForeground h (hP.respond _ (hP.rewind _ (hP.txnAddress a h)))
  | write b => cases he; exact hP.respond _ (hP.tryPush _ b h)
  | endTransmission stop => cases he; exact hP.inForeground h (hP.startTransaction _ _ _ h)
  | request a c stop =>
    cases he; exact hP.inForeground h (hP.startTransaction _ _ _ (hP.rewind _ (hP.txnAddress a h)))
  | available => cases he; exact hP.respond _ h
  | read => cases he; exact hP.respond _ (hP.pop _ h)
  | peek => cases he; exact hP.respond _ h
  | getIncoming => cases he; exact keeps_ite (hP.respond _ h) (hP.draw _ (hP.respond _ h))
  | calcBaud f => cases he; exact hP.inForeground h (keeps_ite (hP.refuse _ h) (hP.respond _ h))
  | selectPins sda scl => cases he; exact hP.inForeground h (hP.draw _ (hP.respond _ (hP.emit _ h)))
  | swapPins pinSet => cases he; exact hP.inForeground h (hP.respond _ (hP.emit _ h))
  | pullups => cases he; exact hP.inForeground h (hP.respond _ (hP.emit _ h))
  | tBuserr k => cases he; exact hP.raise _ (hP.rewind _ (hP.rewind _ (hP.noteRead _ h)))
  | tAddrW k => cases he; exact hP.targetCommand _ (hP.latchIncoming h)
  | tDataRx k =>
    cases he
    exact keeps_ite (hP.discard _ (hP.targetCommand _ (hP.raise _ h)))
      (hP.targetCommand _ (hP.tryPush _ _ (hP.noteRead _ h)))
  | tIllegal k => cases he; exact hP.targetCommand _ h
  | mRepstart | mAckRecv | mStop | mNackHold | mNackStop => cases he; exact hP.masterCommand _ h
  | tWaitStart | tAckResponse | tNackWaitStart => cases he; exact hP.targetCommand _ h
  | _ => cases hi

/-- T_DATA_REQ sets `ack_matters` and goes on quietly (R221). -/
theorem KeptByQuiet.keeps_tDataReq (hP : KeptByQuiet P) {k : Key} (h : P (s.setEng { s.eng with ackMatters := true }))
    (he : exec (.tDataReq k) s = .next t) : P t := by
  have hpop := hP.pop .targetTx h
  simp only [exec, execTDataReq] at he
  split at he <;> rename_i hp <;> rw [hp] at hpop <;> cases he
  · exact hP.targetCommand _ (hP.writeData _ _ rfl hpop)
  · exact hP.targetCommand _ hpop

/-- T_NACK clears `ack_matters` and goes on quietly (R222). -/
theorem KeptByQuiet.keeps_tNack (hP : KeptByQuiet P) {k : Key} (h : P (s.setEng { s.eng with ackMatters := false }))
    (he : exec (.tNack k) s = .next t) : P t := by
  cases he
  exact hP.discard _ (hP.targetCommand _ h)

namespace KeptBySession
variable (hP : KeptBySession P)
include hP

theorem endRun (h : P s) : P s.endRun := hP.session _ _ _ _ _ _ h
theorem acknowledgeAndEnd (h : P s) : P s.acknowledgeAndEnd := hP.endRun (hP.targetCommand _ h)
theorem notifyReceive (k : CbState) (c : Byte) (h : P s) : P (s.notifyReceive k c) :=
  hP.emit _ (hP.session _ _ _ _ _ _ h)
theorem notifyRequest (h : P s) : P s.notifyRequest := hP.emit _ (hP.session _ _ _ _ _ _ h)
theorem requestPhase (h : P s) : P s.requestPhase :=
  State.requestPhase_elim (fun _ => hP.notifyRequest h) (hP.acknowledgeAndEnd h)
theorem deliverRx {f : State → State} (k : CbState) (h : P s) (hf : P (f (s.discard .targetRx))) :
    P (s.deliverRx k f) :=
  State.deliverRx_elim (fun _ c => hP.notifyReceive k c h) hf
theorem cycle (r : PortReg) (h : P s) : P (s.cycle r) := hP.writePort r _ (hP.writePort r _ (hP.noteRead r h))
theorem reprogram (new m : Byte) (fast : Bool) (h : P s) : P (s.reprogram new m fast) :=
  have hc := hP.writePort .ctrla _ (hP.noteRead .ctrla (hP.writePort .mbaud new (hP.writePort .mctrla 0x00 h)))
  keeps_ite (hP.writePort _ _ (hP.writePort _ _ hc)) hc
theorem setBaud (f : Hertz) (h : P s) : P (s.setBaud f) :=
  have hr := hP.noteRead .mbaud h
  keeps_ite (hP.refuse _ h) (keeps_ite (hP.respond _ hr) (hP.respond _ (hP.reprogram _ _ _ (hP.noteRead _ hr))))

theorem keeps_exec {i : Instr} (h : P s)
    (hreq : ∀ k, i = .tDataReq k → P (s.setEng { s.eng with ackMatters := true }))
    (hnack : ∀ k, i = .tNack k → P (s.setEng { s.eng with ackMatters := false })) (he : exec i s = .next t) : P t := by
  cases i with
  | flush =>
    cases he
    have hr := hP.rewind .targetRx (hP.rewind .targetTx (hP.rewind .masterRx (hP.rewind .masterTx h)))
    have hc := hP.cycle .sctrla (hP.cycle .mctrla hr)
    exact hP.inForeground h (hP.respond _ (keeps_ite (hP.writePort _ _ hc) hc))
  | enableMaster =>
    cases he
    refine hP.inForeground h (keeps_ite (hP.respond _ (hP.raise _ h)) (hP.respond _ ?_))
    exact hP.writePort _ _ (hP.writePort _ _ (hP.session _ _ _ _ _ _ (hP.emit _ h)))
  | enableTarget a broadcast mask =>
    cases he
    refine hP.inForeground h (keeps_ite (hP.respond _ (hP.raise _ h)) (hP.respond _ (hP.writePort _ _ (hP.noteRead _ ?_))))
    exact hP.writePort _ _ (hP.writePort _ _ (hP.writePort _ _ (hP.session _ _ _ _ _ _ h)))
  | disableMaster =>
    cases he
    refine hP.inForeground h (hP.respond _ (hP.rewind _ (hP.rewind _ ?_)))
    exact hP.session _ _ _ _ _ _ (hP.writePort _ _ h)
  | disableTarget =>
    cases he
    refine hP.inForeground h (hP.respond _ (hP.rewind _ (hP.rewind _ ?_)))
    exact hP.session _ _ _ _ _ _ (hP.writePort _ _ (hP.writePort _ _ (hP.writePort _ _ h)))
  | setClock f => cases he; exact hP.inForeground h (hP.setBaud f h)
  | onReceive handle => cases he; exact hP.inForeground h (hP.respond _ (hP.session _ _ _ _ _ _ h))
  | onRequest handle => cases he; exact hP.inForeground h (hP.respond _ (hP.session _ _ _ _ _ _ h))
  | cbReturn =>
    exact exec_cbReturn_elim (fun _ => hP.refuse _ h) (fun _ => hP.endRun (hP.discard _ h))
      (fun _ => hP.requestPhase (hP.discard _ h)) (fun _ => hP.acknowledgeAndEnd h) he
  | tStop k => cases he; exact hP.deliverRx _ (hP.writePort _ _ h) (hP.endRun (hP.discard _ (hP.writePort _ _ h)))
  | tAddrR k => cases he; exact hP.deliverRx _ (hP.latchIncoming h) (hP.requestPhase (hP.discard _ (hP.latchIncoming h)))
  | tDataReq k => exact hP.keeps_tDataReq (hreq k rfl) he
  | tNack k => exact hP.keeps_tNack (hnack k rfl) he
  | _ => exact hP.toKeptByQuiet.keeps_exec rfl h he

end KeptBySession
end

end Sys2Proof.Machine
end

section
/-! PROOFS. Every step keeps the storage invariant (R6, R26 to R28). -/

namespace Sys2Proof.Machine

/-! ## The storage of one engine -/

/-- Storing a well-formed buffer under a resolved name: with shared buffers the separate target buffers stay unused. -/
theorem Engine.storageWf_setBuffer {p : Params} {e : Engine} {rb : RingBuffer} (b : BufName) (h : e.storageWf p)
    (hrb : rb.wf p.bufN = true) : (e.setBuffer (b.resolve p.simultaneous) rb).storageWf p := by
  obtain ⟨hmt, hmr, htt, htr, hshared, haddr⟩ := h
  cases hp : p.simultaneous
  · cases b <;> simp_all [Engine.storageWf, Engine.setBuffer, BufName.resolve]
  · cases b <;> simp_all [Engine.storageWf, Engine.setBuffer, BufName.resolve]

theorem Engine.buffer_wf {p : Params} {e : Engine} (b : BufName) (h : e.storageWf p) : (e.buffer b).wf p.bufN = true := by
  obtain ⟨hmt, hmr, htt, htr, -, -⟩ := h
  cases b <;> assumption

/-- A 7-bit address in transmission position has bit 0 clear (R26). -/
theorem shiftedAddress_bit0 (a : Address7) : (shiftedAddress a).getLsbD 0 = false := by
  rw [shiftedAddress, BitVec.getLsbD_append]
  rfl

theorem Engine.storageWf_shiftedAddress {p : Params} {e : Engine} (a : Address7) (h : e.storageWf p) :
    { e with txnAddress := shiftedAddress a }.storageWf p := by
  obtain ⟨hmt, hmr, htt, htr, hshared, -⟩ := h
  exact ⟨hmt, hmr, htt, htr, hshared, shiftedAddress_bit0 a⟩

/-! ## The storage invariant -/

section
variable {s t : State}

/-- Replacing the selected engine; by default the new one differs in registers the invariant does not speak of. -/
theorem State.storageInv.setEng {e : Engine} (h : s.storageInv)
    (he : s.eng.storageWf s.params → e.storageWf s.params := by exact id) : (s.setEng e).storageInv := by
  obtain ⟨hp, hsel, hall⟩ := h
  obtain ⟨hs, ho⟩ := (s.forall_engineOf _).mp hall
  refine ⟨by simpa using hp, ?_, ?_⟩
  · simpa [State.hasInst] using hsel
  · exact ((s.setEng e).forall_engineOf _).mpr (by simpa using ⟨he hs, ho⟩)

theorem State.storageInv.setBuf {rb : RingBuffer} (h : s.storageInv) (b : BufName)
    (hrb : (s.buf b).wf s.params.bufN = true → rb.wf s.params.bufN = true) : (s.setBuf b rb).storageInv :=
  h.setEng fun he => Engine.storageWf_setBuffer b he (hrb (Engine.buffer_wf _ he))

/-- Every operation keeps the storage invariant. -/
theorem storageInv_kept : KeptBySession State.storageInv where
  emit _ h := h
  draw _ h := h
  raise _ h := h.setEng
  transaction _ _ _ _ _ h := h.setEng
  txnAddress a h := h.setEng (Engine.storageWf_shiftedAddress a)
  incoming _ h := h.setEng
  writeData _ _ _ h := h.setEng
  masterCommand _ h := h.setEng
  targetCommand _ h := h.setEng
  periphStep _ h := h.setEng
  setBuf b _ hrb h := h.setBuf b hrb
  session _ _ _ _ _ _ h := h.setEng
  writePort _ _ h := h.setEng

theorem State.storageInv.of_exec {i : Instr} (h : s.storageInv) (he : exec i s = .next t) : t.storageInv :=
  storageInv_kept.keeps_exec h (fun _ _ => h.setEng) (fun _ _ => h.setEng) he

/-- Taking an offer to an existing engine. -/
theorem State.storageInv.taking (h : s.storageInv) {x : Stimulus} (rest : List Stimulus) (hadm : s.admits x = true) :
    (s.taking x.inst rest).storageInv := by
  obtain ⟨hp, -, hall⟩ := h
  exact ⟨hp, hasInst_of_admits hadm, hall⟩

theorem State.storageInv.of_step (h : s.storageInv) (hstep : step s = .next t) : t.storageInv := by
  cases step_cases hstep with
  | waits hsched ht => exact ht ▸ h
  | drops x rest hsched hadm ht => exact ht ▸ h
  | refuses i w r rest hsched hadm hdec ht => exact ht ▸ storageInv_kept.refuse r (h.taking rest hadm)
  | command i w ins rest hsched hadm hdec hexec => exact (h.taking rest hadm).of_exec hexec
  | engine i rest hsched hadm ht => exact ht ▸ storageInv_kept.engineStep (h.taking rest hadm)
  | event i rest hsched hadm hexec => exact (storageInv_kept.noteRead .sstatus (h.taking rest hadm)).of_exec hexec
  | periph i ws rest hsched hadm ht => exact ht ▸ storageInv_kept.periphStep ws (h.taking rest hadm)

end

/-- Settles O44: each operation keeps the invariant, an instruction and an engine step are chains of operations, and a
step is one of these on an engine that exists. -/
theorem stepKeepsStorageInvariant : Obligations.StepKeepsStorageInvariant := by
  unfold Obligations.StepKeepsStorageInvariant
  exact fun _ _ h hstep => h.of_step hstep

end Sys2Proof.Machine
end

section
/-! PROOFS. What R24 says of `ack_matters`, and the state after reset (R60). -/

namespace Sys2Proof.Machine

/-! ## `ack_matters` -/

/-- Every operation, those of the session too, leaves `ack_matters` as it is. -/
theorem ackMatters_kept (a : Bool) : KeptBySession (fun s => s.eng.ackMatters = a) where
  emit _ h := h
  draw _ h := h
  raise _ h := by simpa using h
  transaction _ _ _ _ _ h := by simpa using h
  txnAddress _ h := by simpa using h
  incoming _ h := by simpa using h
  writeData _ _ _ h := by simpa using h
  masterCommand _ h := by simpa using h
  targetCommand _ h := by simpa using h
  periphStep _ h := by simpa using h
  setBuf _ _ _ h := by simpa using h
  session _ _ _ _ _ _ h := by simpa using h
  writePort _ _ h := by simpa using h

/-- Settles O49: T_DATA_REQ leaves `ack_matters` set, T_NACK leaves it clear, and any other instruction is made of
operations that keep it. -/
theorem onlyDataRequestAndNackChangeAckMatters : Obligations.OnlyDataRequestAndNackChangeAckMatters := by
  unfold Obligations.OnlyDataRequestAndNackChangeAckMatters
  intro i s t he hne
  by_cases hreq : ∃ k, i = .tDataReq k
  · obtain ⟨k, rfl⟩ := hreq
    exact .inl ⟨k, rfl, (ackMatters_kept true).keeps_tDataReq (by simp) he⟩
  by_cases hnack : ∃ k, i = .tNack k
  · obtain ⟨k, rfl⟩ := hnack
    exact .inr ⟨k, rfl, (ackMatters_kept false).keeps_tNack (by simp) he⟩
  exact absurd ((ackMatters_kept s.eng.ackMatters).keeps_exec rfl (fun k hk => (hreq ⟨k, hk⟩).elim)
    (fun k hk => (hnack ⟨k, hk⟩).elim) he) hne

/-! ## Reset -/

theorem engineOf_resetWith (p : Params) (port : Port) (i : InstId) :
    (State.resetWith p port port).engineOf i = Engine.resetWith port := by
  cases i <;> rfl

/-- With the enables of SCTRLA off no bus event can be delivered (R296). -/
theorem deliverable_resetWith (p : Params) (i : InstId) :
    (State.resetWith p Port.zero Port.zero).deliverable i = false := by
  rw [State.deliverable, engineOf_resetWith]
  decide

/-- Settles O5: both engines are `Engine.resetWith Port.zero`, whose fields are read off. -/
theorem resetStateOfEveryInstance : Obligations.ResetStateOfEveryInstance := by
  unfold Obligations.ResetStateOfEveryInstance
  refine ⟨rfl, fun p i => ?_⟩
  simp only [engineOf_resetWith, deliverable_resetWith]
  refine ⟨rfl, rfl, rfl, rfl, rfl, rfl, rfl, fun b => ?_, rfl, rfl, rfl, fun r => ?_, rfl, trivial⟩
  · cases b <;> exact ⟨rfl, rfl⟩
  · cases r <;> rfl

end Sys2Proof.Machine
end

section
/-! PROOFS. Every step keeps the role invariant (R21, R134, R240 to R245, R275, R296): the quiet operations do, and the
session's instructions move the flags and the control registers together. -/

namespace Sys2Proof.Machine

/-! ## The roles of one engine -/

/-- Of the port the roles read the control registers, SADDR and the two command registers. -/
theorem Engine.roleWf_setPort {p : Params} {e : Engine} {port : Port} (h : e.roleWf p)
    (hmctrla : port.mctrla = e.port.mctrla) (hsctrla : port.sctrla = e.port.sctrla) (hsaddr : port.saddr = e.port.saddr)
    (hmcmd : port.mcmd = e.port.mcmd ∨ isMasterCode port.mcmd = true)
    (hscmd : port.scmd = e.port.scmd ∨ isTargetCode port.scmd = true) : { e with port := port }.roleWf p := by
  obtain ⟨hex, hm, hmOn, hs, ha, hcb, hrx, hrq, hmc, htc⟩ := h
  refine ⟨hex, hmctrla ▸ hm, hmctrla ▸ hmOn, hsctrla ▸ hs, hsaddr ▸ ha, hcb, hrx, hrq, ?_, ?_⟩
  · exact hmcmd.elim (fun h => h ▸ hmc) id
  · exact hscmd.elim (fun h => h ▸ htc) id

theorem Engine.roleWf_setBuffer {p : Params} {e : Engine} (b : BufName) (rb : RingBuffer) (h : e.roleWf p) :
    (e.setBuffer b rb).roleWf p := by
  cases b <;> exact h

theorem isMasterCode_code (c : MasterCommand) : isMasterCode c.code = true := by cases c <;> decide
theorem isTargetCode_code (c : TargetCommand) : isTargetCode c.code = true := by cases c <;> decide

/-! ## Quiet operations -/

section
variable {s t : State}

theorem State.roleInv.eng (h : s.roleInv) : s.eng.roleWf s.params := h s.sel

/-- Only the selected engine differs. -/
theorem State.roleInv.of_eng (h : s.roleInv) (hp : t.params = s.params) (ho : t.otherEngine = s.otherEngine)
    (he : t.eng.roleWf s.params) : t.roleInv := by
  obtain ⟨-, hother⟩ := (s.forall_engineOf _).mp h
  refine (t.forall_engineOf (fun e => e.roleWf t.params)).mpr ?_
  rw [hp, ho]
  exact ⟨he, hother⟩

/-- Replacing the selected engine; by default the new one differs in registers the invariant does not speak of. -/
theorem State.roleInv.setEng {e : Engine} (h : s.roleInv)
    (he : s.eng.roleWf s.params → e.roleWf s.params := by exact id) : (s.setEng e).roleInv :=
  h.of_eng (by simp) (by simp) (by simpa using he h.eng)

/-- The quiet operations keep the role invariant. -/
theorem roleInv_kept : KeptByQuiet State.roleInv where
  emit _ h := h
  draw _ h := h
  raise _ h := h.setEng
  transaction _ _ _ _ _ h := h.setEng
  txnAddress _ h := h.setEng
  incoming _ h := h.setEng
  writeData r v hr h := by
    refine h.setEng fun he => ?_
    cases r with
    | ctrla | mstatus | mbaud | maddr | mdata | sstatus | sdata => exact he
    | mctrla | mcmd | sctrla | scmd | saddr | saddrmask => cases hr
  masterCommand c h := h.setEng fun he => Engine.roleWf_setPort he rfl rfl rfl (.inr (isMasterCode_code c)) (.inl rfl)
  targetCommand c h := h.setEng fun he => Engine.roleWf_setPort he rfl rfl rfl (.inl rfl) (.inr (isTargetCode_code c))
  periphStep {s} ws h := h.setEng fun he => by
    obtain ⟨-, hmctrla, hmcmd, -, -, hsctrla, hscmd, hsaddr, -⟩ := s.eng.port.periphWrites_keeps ws
    exact Engine.roleWf_setPort he hmctrla hsctrla hsaddr (.inl hmcmd) (.inl hscmd)
  setBuf _ _ _ h := h.setEng (Engine.roleWf_setBuffer _ _)

/-! ## Operations on the session -/

theorem State.roleInv.endRun (h : s.roleInv) : s.endRun.roleInv := by
  refine h.setEng fun ⟨hex, hm, hmOn, hs, ha, _, _, _, hmc, htc⟩ => ?_
  exact ⟨hex, hm, hmOn, hs, ha, by simp, by simp, by simp, hmc, htc⟩

theorem State.roleInv.acknowledgeAndEnd (h : s.roleInv) : s.acknowledgeAndEnd.roleInv :=
  (roleInv_kept.targetCommand _ h).endRun

/-- `on_receive` is called with the target enabled and the handle registered. -/
theorem State.roleInv.notifyReceive (h : s.roleInv) (ht : s.eng.targetEnabled = true) (hr : s.eng.onReceive ≠ 0)
    {k : CbState} (hk : k ≠ .req) (c : Byte) : (s.notifyReceive k c).roleInv := by
  refine State.roleInv.setEng h fun ⟨hex, hm, hmOn, hs, ha, _, _, _, hmc, htc⟩ => ?_
  exact ⟨hex, hm, hmOn, hs, ha, fun _ => ht, fun _ => hr, fun e => absurd e hk, hmc, htc⟩

/-- `on_request` is called with the target enabled and the handle registered. -/
theorem State.roleInv.notifyRequest (h : s.roleInv) (ht : s.eng.targetEnabled = true) (hr : s.eng.onRequest ≠ 0) :
    s.notifyRequest.roleInv := by
  refine State.roleInv.setEng h fun ⟨hex, hm, hmOn, hs, ha, _, _, _, hmc, htc⟩ => ?_
  exact ⟨hex, hm, hmOn, hs, ha, fun _ => ht, by simp, fun _ => hr, hmc, htc⟩

theorem State.roleInv.requestPhase (h : s.roleInv) (ht : s.eng.targetEnabled = true) : s.requestPhase.roleInv :=
  State.requestPhase_elim (h.notifyRequest ht) h.acknowledgeAndEnd

/-- Switching a control register off and back leaves it as it was (R244). -/
theorem State.roleInv.cycle (h : s.roleInv) {r : PortReg} (hr : r = .mctrla ∨ r = .sctrla) : (s.cycle r).roleInv := by
  refine h.of_eng (by simp [State.cycle]) (by simp [State.cycle]) ?_
  rcases hr with rfl | rfl <;> simpa [State.cycle, Port.engineWrite] using h.eng

/-- The reprogramming restores the MCTRLA it saved: where master logic was off, the register already held 0 (R166). -/
theorem State.roleInv.reprogram (h : s.roleInv) (new : Byte) (fast : Bool) :
    (s.reprogram new (s.port .mctrla) fast).roleInv := by
  refine h.of_eng ?_ ?_ ?_
  · unfold State.reprogram; split <;> simp
  · unfold State.reprogram; split <;> simp
  · obtain ⟨-, hm, -⟩ := h.eng
    unfold State.reprogram
    split <;> rename_i hon <;> simp only [writePort_eng, noteRead_eng]
    · exact Engine.roleWf_setPort h.eng rfl rfl rfl (.inl rfl) (.inl rfl)
    · have hoff : s.eng.port.mctrla = 0x00 := hm.resolve_right fun e => hon (by simp [e, masterLogicOn])
      exact Engine.roleWf_setPort h.eng hoff.symm rfl rfl (.inl rfl) (.inl rfl)

theorem State.roleInv.setBaud (h : s.roleInv) (f : Hertz) : (s.setBaud f).roleInv :=
  have hr := roleInv_kept.noteRead .mctrla (roleInv_kept.noteRead .mbaud h)
  keeps_ite (roleInv_kept.refuse _ h) (keeps_ite (roleInv_kept.respond _ (roleInv_kept.noteRead _ h))
    (roleInv_kept.respond _ (hr.reprogram _ _)))

/-! ## The session's instructions -/

/-- The guard of ENABLE_MASTER keeps the roles apart (R240, R245). -/
theorem State.roleInv.enableMaster (h : s.roleInv) (hguard : s.masterGuard = false) :
    ((((s.emit .pinsReset).setEng { s.eng with masterEnabled := true }).writePort .mctrla masterControlOn).writePort
      .mstatus forceIdle).roleInv := by
  refine h.of_eng (by simp) (by simp) ?_
  obtain ⟨hex, hm, hmOn, hs, ha, hcb, hrx, hrq, hmc, htc⟩ := h.eng
  have ht : s.params.simultaneous = false → s.eng.targetEnabled = false := fun hp => by
    simp only [State.masterGuard, hp] at hguard
    simpa using (Bool.or_eq_false_iff.mp hguard).2
  simp only [writePort_eng, setEng_eng]
  exact ⟨fun hp ⟨_, he⟩ => by simp [ht hp] at he, .inr rfl, fun _ => rfl, hs, ha, hcb, hrx, hrq, hmc, htc⟩

/-- ENABLE_TARGET writes the address, its registers and the enable of MCTRLA together (R241, R245). -/
theorem State.roleInv.enableTarget (h : s.roleInv) (hguard : s.targetGuard = false) (own mask : Byte) :
    ((((((s.setEng { s.eng with targetEnabled := true, targetAddress := own }).writePort .saddr own).writePort
      .saddrmask mask).writePort .sctrla targetControlOn).noteRead .mctrla).writePort .mctrla
      (s.eng.port.mctrla ||| 0x01)).roleInv := by
  refine h.of_eng (by simp) (by simp) ?_
  obtain ⟨hex, hm, hmOn, hs, ha, -, hrx, hrq, hmc, htc⟩ := h.eng
  have hmaster : s.params.simultaneous = false → s.eng.masterEnabled = false := fun hp => by
    simp only [State.targetGuard, hp] at hguard
    simpa using (Bool.or_eq_false_iff.mp hguard).1
  have hon : s.eng.port.mctrla ||| 0x01 = 0x01 := by rcases hm with e | e <;> rw [e] <;> rfl
  simp only [writePort_eng, noteRead_eng, setEng_eng, hon]
  exact ⟨fun hp ⟨he, _⟩ => by simp [hmaster hp] at he, .inr rfl, fun _ => rfl, rfl, rfl, fun _ => rfl, hrx, hrq,
    hmc, htc⟩

/-- DISABLE_MASTER clears the flag and the register (R242). -/
theorem State.roleInv.disableMaster (h : s.roleInv) {u : State} (hu : u = s.writePort .mctrla 0x00) :
    (u.setEng { u.eng with masterEnabled := false }).roleInv := by
  subst hu
  refine h.of_eng (by simp) (by simp) ?_
  obtain ⟨hex, hm, hmOn, hs, ha, hcb, hrx, hrq, hmc, htc⟩ := h.eng
  simp only [writePort_eng, setEng_eng]
  exact ⟨by simp, .inl rfl, by simp, hs, ha, hcb, hrx, hrq, hmc, htc⟩

/-- DISABLE_TARGET, with no callback running, clears the flag and the registers (R243). -/
theorem State.roleInv.disableTarget (h : s.roleInv) (hcb : s.eng.cbState = .none) {u : State}
    (hu : u = ((s.writePort .sctrla 0x00).writePort .saddr 0x00).writePort .saddrmask 0x00) :
    (u.setEng { u.eng with targetEnabled := false }).roleInv := by
  subst hu
  refine h.of_eng (by simp) (by simp) ?_
  obtain ⟨hex, hm, hmOn, hs, ha, -, hrx, hrq, hmc, htc⟩ := h.eng
  simp only [writePort_eng, setEng_eng]
  exact ⟨by simp, hm, hmOn, rfl, rfl, fun hne => absurd hcb hne, hrx, hrq, hmc, htc⟩

/-- A handle is registered in foreground context only, so under no running callback (R272, R273). -/
theorem State.roleInv.setHandles (h : s.roleInv) (hcb : s.eng.cbState = .none) (receive request : Handle) :
    (s.setEng { s.eng with onReceive := receive, onRequest := request }).roleInv := by
  refine h.setEng fun ⟨hex, hm, hmOn, hs, ha, hcbT, _, _, hmc, htc⟩ => ?_
  exact ⟨hex, hm, hmOn, hs, ha, hcbT, by simp [hcb], by simp [hcb], hmc, htc⟩

/-- Every instruction keeps the role invariant, a dispatcher branch where the target is enabled. -/
theorem State.roleInv.of_exec {i : Instr} (h : s.roleInv) (hbranch : isBranch i = true → s.eng.targetEnabled = true)
    (he : exec i s = .next t) : t.roleInv := by
  have hK := roleInv_kept
  have hrefuse := hK.refuse .wrongContext h
  have hraise := hK.respond 0 (hK.raise .roleAlreadyActive h)
  cases i with
  | flush =>
    cases he
    have hr := hK.rewind .targetRx (hK.rewind .targetTx (hK.rewind .masterRx (hK.rewind .masterTx h)))
    have hc := (hr.cycle (.inl rfl)).cycle (.inr rfl)
    exact hK.inForeground h (hK.respond _ (keeps_ite (hK.writeData _ _ rfl hc) hc))
  | enableMaster =>
    cases he
    refine hK.inForeground h ?_
    dsimp only
    split <;> rename_i hg
    · exact hraise
    · exact hK.respond _ (h.enableMaster (by simpa using hg))
  | enableTarget a broadcast mask =>
    cases he
    refine hK.inForeground h ?_
    dsimp only
    split <;> rename_i hg
    · exact hraise
    · refine hK.respond _ ?_
      simpa [Port.engineWrite] using h.enableTarget (by simpa using hg) (ownAddress a broadcast) mask
  | disableMaster => cases he; exact hK.inForeground h (hK.respond _ (hK.rewind _ (hK.rewind _ (h.disableMaster rfl))))
  | disableTarget =>
    cases he
    refine State.inForeground_elim hrefuse fun hcb => ?_
    exact hK.respond _ (hK.rewind _ (hK.rewind _ (h.disableTarget hcb rfl)))
  | setClock f => cases he; exact hK.inForeground h (h.setBaud f)
  | onReceive handle => cases he; exact State.inForeground_elim hrefuse fun hcb => hK.respond _ (h.setHandles hcb _ _)
  | onRequest handle => cases he; exact State.inForeground_elim hrefuse fun hcb => hK.respond _ (h.setHandles hcb _ _)
  | cbReturn =>
    have ht : s.eng.cbState = .rxAddr → s.eng.targetEnabled = true := fun e => by
      obtain ⟨-, -, -, -, -, hcb, -⟩ := h.eng
      exact hcb (by simp [e])
    exact exec_cbReturn_elim (fun _ => hrefuse) (fun _ => (hK.discard _ h).endRun)
      (fun e => (hK.discard _ h).requestPhase (by simpa using ht e)) (fun _ => h.acknowledgeAndEnd) he
  | tStop k =>
    cases he
    have hw := hK.writeData .sstatus clearStop rfl h
    exact State.deliverRx_elim (fun hr => hw.notifyReceive (by simpa using hbranch rfl) hr (by simp))
      (hK.discard _ hw).endRun
  | tAddrR k =>
    cases he
    have ht : s.latchIncoming.eng.targetEnabled = true := by simpa using hbranch rfl
    have hl := hK.latchIncoming h
    exact State.deliverRx_elim (fun hr => hl.notifyReceive ht hr (by simp))
      ((hK.discard _ hl).requestPhase (by simpa using ht))
  | tDataReq k => exact hK.keeps_tDataReq h.setEng he
  | tNack k => exact hK.keeps_tNack h.setEng he
  | _ => exact hK.keeps_exec rfl h he

/-! ## Steps -/

/-- A bus event is delivered only to an enabled target: otherwise SCTRLA is 0 and no interrupt is on (R296). -/
theorem State.roleInv.targetEnabled_of_deliverable (h : s.roleInv) {i : InstId} (hd : s.deliverable i = true) :
    (s.engineOf i).targetEnabled = true := by
  obtain ⟨-, -, -, hs, -⟩ := h i
  by_contra hoff
  have hz : (s.engineOf i).port.sctrla = 0x00 := by simpa [hoff] using hs
  simp [State.deliverable, hz, eventsEnabled, targetLogicOn] at hd

theorem State.roleInv.of_step (h : s.roleInv) (hstep : step s = .next t) : t.roleInv := by
  have htaking : ∀ i rest, (s.taking i rest).roleInv := fun _ _ => h
  cases step_cases hstep with
  | waits hsched ht => exact ht ▸ h
  | drops x rest hsched hadm ht => exact ht ▸ h
  | refuses i w r rest hsched hadm hdec ht => exact ht ▸ roleInv_kept.refuse r (htaking i rest)
  | command i w ins rest hsched hadm hdec hexec =>
    exact (htaking i rest).of_exec (fun hb => by simp [isBranch_of_decodeCommand hdec] at hb) hexec
  | engine i rest hsched hadm ht => exact ht ▸ roleInv_kept.engineStep (htaking i rest)
  | event i rest hsched hadm hexec =>
    refine (roleInv_kept.noteRead .sstatus (htaking i rest)).of_exec (fun _ => ?_) hexec
    exact h.targetEnabled_of_deliverable (Bool.and_eq_true_iff.mp hadm).2
  | periph i ws rest hsched hadm ht => exact ht ▸ roleInv_kept.periphStep ws (htaking i rest)

end

/-- Settles O46: the quiet operations keep the invariant, each session instruction moves a flag with its registers under
its guard, and a notification finds the target enabled, by the rule that delivers the event or by the invariant. -/
theorem stepKeepsRoleInvariant : Obligations.StepKeepsRoleInvariant := by
  unfold Obligations.StepKeepsRoleInvariant
  exact fun _ _ h hstep => h.of_step hstep

end Sys2Proof.Machine
end

section
/-! PROOFS. Which offers are admitted (R78, R296, R318), and what a step with an admitted or a dropped offer runs, the
command codes that engine steps and branches issue among it (R70, R77, R210). -/

namespace Sys2Proof.Machine

/-! ## The foreground -/

section
variable {s : State} {i : InstId}

/-- While a callback runs on an existing instance the foreground waits (R318; log entry 14). -/
theorem State.foregroundFree_eq_false (hi : s.hasInst i = true) (hcb : (s.engineOf i).cbState ≠ .none) :
    s.foregroundFree = false := by
  cases i with
  | i0 => simp [State.foregroundFree, show s.engine0.cbState ≠ .none from hcb]
  | i1 => simp [State.foregroundFree, hi, show s.engine1.cbState ≠ .none from hcb]

/-- A machine of one instance has instance 0 only (R6). -/
theorem eq_i0_of_hasInst (hone : s.params.numInstances = 1) (hi : s.hasInst i = true) : i = .i0 := by
  cases i with
  | i0 => rfl
  | i1 => simp [State.hasInst, hone] at hi

theorem State.foregroundFree_one (hone : s.params.numInstances = 1) (hi : s.hasInst i = true) :
    s.foregroundFree = ((s.engineOf i).cbState == .none) := by
  cases eq_i0_of_hasInst hone hi
  simp [State.foregroundFree, State.hasInst, State.engineOf, hone]

theorem State.foregroundIdle_one (hone : s.params.numInstances = 1) (hi : s.hasInst i = true) :
    s.foregroundIdle = ((s.engineOf i).mstate == .idle) := by
  cases eq_i0_of_hasInst hone hi
  simp [State.foregroundIdle, State.hasInst, State.engineOf, hone]

/-! ## Admitted offers -/

/-- The delivery rule of R296, on the bits of SCTRLA. -/
theorem State.admits_event_iff (hi : s.hasInst i = true) :
    s.admits (.event i) = true ↔ (s.engineOf i).cbState = .none ∧
      (s.engineOf i).port.sctrla.getLsbD 0 = true ∧ (s.engineOf i).port.sctrla.extractLsb' 5 3 ≠ 0 := by
  simp [State.admits, hi, State.deliverable, eventsEnabled, targetLogicOn, targetInterrupts]

theorem State.admits_command_one_iff (hone : s.params.numInstances = 1) (hi : s.hasInst i = true) (w : CommandWord) :
    s.admits (.command i w) = true ↔ (s.engineOf i).cbState ≠ .none ∨ (s.engineOf i).mstate = .idle := by
  simp only [State.admits, hi, State.foregroundFree_one hone hi, State.foregroundIdle_one hone hi]
  by_cases hcb : (s.engineOf i).cbState = .none <;> simp [hcb]

theorem State.admits_engine_one_iff (hone : s.params.numInstances = 1) (hi : s.hasInst i = true) :
    s.admits (.engine i) = true ↔ (s.engineOf i).cbState = .none ∧ (s.engineOf i).mstate ≠ .idle := by
  simp [State.admits, hi, State.foregroundFree_one hone hi]

/-- While a callback runs no event of its instance is admitted (R296). -/
theorem State.admits_event_of_callback (hcb : (s.engineOf i).cbState ≠ .none) : s.admits (.event i) = false := by
  simp [State.admits, State.deliverable, hcb]

theorem State.admits_engine_of_held (hheld : s.foregroundFree = false) : s.admits (.engine i) = false := by
  simp [State.admits, hheld]

theorem State.admits_command_of_held (hheld : s.foregroundFree = false) (hcb : (s.engineOf i).cbState = .none)
    (w : CommandWord) : s.admits (.command i w) = false := by
  simp [State.admits, hheld, hcb]

/-! ## What a step runs -/

variable {rest : List Stimulus}

theorem State.fetch_of_admits {x : Stimulus} (hsched : s.schedule = x :: rest) (hadm : s.admits x = true) :
    s.fetch = ({ s with schedule := rest } : State).take x := by
  simp [State.fetch, hsched, hadm]

/-- An offer that is not admitted only leaves the schedule (log entry 3). -/
theorem step_of_not_admits {x : Stimulus} (hsched : s.schedule = x :: rest) (hadm : s.admits x = false) :
    step s = .next { s with schedule := rest } := by
  simp [step, State.fetch, hsched, hadm]

theorem step_of_command {w : CommandWord} {ins : Instr} (hsched : s.schedule = .command i w :: rest)
    (hadm : s.admits (.command i w) = true) (hdec : decodeCommand w = .ok ins) :
    step s = exec ins (s.taking i rest) := by
  simp only [step, State.fetch_of_admits hsched hadm, State.take, State.fetchCommand, hdec]
  rfl

theorem step_of_event (hsched : s.schedule = .event i :: rest) (hadm : s.admits (.event i) = true) :
    step s = exec (decodeKey (s.taking i rest).dispatchKey) (s.taking i rest).enterEvent := by
  simp only [step, State.fetch_of_admits hsched hadm, State.take]
  rfl

theorem step_of_engine (hsched : s.schedule = .engine i :: rest) (hadm : s.admits (.engine i) = true) :
    step s = .next (s.taking i rest).engineStep := by
  simp only [step, State.fetch_of_admits hsched hadm, State.take]
  rfl

end

theorem decodeCommand_of_decode {w : CommandWord} {ins : Instr} (h : decode (.command w) = some ins) :
    decodeCommand w = .ok ins := by
  cases hd : decodeCommand w with
  | ok i => simpa [decode, hd] using h
  | refuse r => simp [decode, hd] at h

/-! ## Command codes issued by engine steps -/

section
variable {s : State}

theorem State.engineStep_data_write (hm : s.eng.mstate = .data) (hk : s.eng.mKind = .write) :
    s.engineStep = (s.noteRead .mstatus).stepDataWrite s.eng.port.mstatus := by
  simp [State.engineStep, hm, hk]

theorem State.engineStep_data_read (hm : s.eng.mstate = .data) (hk : s.eng.mKind = .read) :
    s.engineStep = (s.noteRead .mstatus).stepDataRead s.eng.port.mstatus := by
  simp [State.engineStep, hm, hk]

theorem State.engineStep_addrWait_read (hm : s.eng.mstate = .addrWait) (hk : s.eng.mKind = .read) :
    s.engineStep = (s.noteRead .mstatus).stepAddrWaitRead s.eng.port.mstatus := by
  simp [State.engineStep, hm, hk]

/-- A write with nothing left to send ends (R188). -/
theorem State.sendNext_of_isEmpty (s : State) (he : (s.buf .masterTx).isEmpty = true) : s.sendNext = s.finishWrite := by
  rcases s.pop_cases .masterTx with ⟨_, e⟩ | ⟨hne, _⟩
  · simp [State.sendNext, e]
  · simp [he] at hne

/-- The end of a write with its stop requested runs M_STOP, then responds (R122, R188). -/
theorem State.finishWrite_runs_stop (s : State) (hstop : s.eng.mSendStop = true) :
    ∃ v, exec .mStop s = .next v ∧ s.finishWrite = v.finish (byteResponse s.eng.mN) :=
  ⟨s.masterCommand .stop, rfl, by simp [State.finishWrite, hstop]⟩

/-- The end of a read runs M_NACK_STOP or M_NACK_HOLD, then responds (R124, R125, R195). -/
theorem State.finishRead_runs_nack (s : State) :
    ∃ v, exec (if s.eng.mSendStop then .mNackStop else .mNackHold) s = .next v ∧
      s.finishRead = v.finish (byteResponse s.eng.mN) := by
  refine ⟨s.masterCommand (readEndCommand s.eng.mSendStop), ?_, by simp [State.finishRead]⟩
  cases s.eng.mSendStop <;> rfl

/-- A push leaves the count of a transaction and its target as they are (R144). -/
theorem State.tryPush_counts (s : State) (b : BufName) (v : Byte) :
    (s.tryPush b v).2.eng.mN = s.eng.mN ∧ (s.tryPush b v).2.eng.mCount = s.eng.mCount := by
  rcases s.tryPush_cases b v with ⟨_, e⟩ | ⟨_, e⟩ <;> simp [e]

/-- A read that wants more bytes runs M_ACK_RECV once this one is stored and counted (R123, R193). -/
theorem State.receiveNext_runs_ackRecv (s : State) (hmore : s.eng.mN + 1 < s.eng.mCount) :
    ∃ u v, u.eng.mN = s.eng.mN + 1 ∧ exec .mAckRecv u = .next v ∧ s.receiveNext = v.goto .dataWait := by
  obtain ⟨hn, hc⟩ := (s.noteRead .mdata).tryPush_counts .masterRx (s.port .mdata)
  rw [noteRead_eng] at hn hc
  rw [s.receiveNext_eq, hn, hc, if_pos hmore]
  exact ⟨_, _, by simp, rfl, rfl⟩

theorem State.engineStep_runs_stop (hm : s.eng.mstate = .data) (hk : s.eng.mKind = .write)
    (hgo : phaseAborted s.eng.port.mstatus = false) (hack : mRxNack s.eng.port.mstatus = false)
    (hempty : s.eng.masterTx.isEmpty = true) (hstop : s.eng.mSendStop = true) :
    ∃ v, exec .mStop (s.noteRead .mstatus) = .next v ∧ s.engineStep = v.finish (byteResponse s.eng.mN) := by
  have hsend : s.engineStep = (s.noteRead .mstatus).sendNext := by
    simp [State.engineStep_data_write hm hk, State.stepDataWrite, hgo, hack]
  rw [hsend, (s.noteRead .mstatus).sendNext_of_isEmpty hempty]
  exact (s.noteRead .mstatus).finishWrite_runs_stop hstop

theorem State.engineStep_runs_nack (hm : s.eng.mstate = .addrWait) (hk : s.eng.mKind = .read)
    (hdone : phaseDone s.eng.port.mstatus = true) (hack : mRxNack s.eng.port.mstatus = false)
    (hzero : s.eng.mCount = 0) :
    ∃ v, exec (if s.eng.mSendStop then .mNackStop else .mNackHold) (s.noteRead .mstatus) = .next v ∧
      s.engineStep = v.finish (byteResponse s.eng.mN) := by
  have hend : s.engineStep = (s.noteRead .mstatus).finishRead := by
    simp [State.engineStep_addrWait_read hm hk, State.stepAddrWaitRead, hdone, hack, hzero]
  rw [hend]
  exact (s.noteRead .mstatus).finishRead_runs_nack

theorem State.engineStep_runs_ackRecv (hm : s.eng.mstate = .data) (hk : s.eng.mKind = .read)
    (hgo : phaseAborted s.eng.port.mstatus = false) (hroom : s.eng.masterRx.isFull s.params.bufN = false)
    (hmore : s.eng.mN + 1 < s.eng.mCount) :
    ∃ u v, u.eng.mN = s.eng.mN + 1 ∧ exec .mAckRecv u = .next v ∧ s.engineStep = v.goto .dataWait := by
  have hbuf : (s.buf .masterRx).isFull s.params.bufN = false := hroom
  have hreceive : s.engineStep = (s.noteRead .mstatus).receiveNext := by
    simp [State.engineStep_data_read hm hk, State.stepDataRead, hgo, hbuf]
  rw [hreceive]
  exact (s.noteRead .mstatus).receiveNext_runs_ackRecv hmore

end

/-! ## Command codes issued by branches -/

/-- With no byte staged T_DATA_REQ runs T_WAIT_START, `ack_matters` being set (R128, R221). -/
theorem exec_tDataReq_of_isEmpty {s : State} (k : Key) (he : (s.buf .targetTx).isEmpty = true) :
    exec (.tDataReq k) s = exec .tWaitStart (s.setEng { s.eng with ackMatters := true }) := by
  have hbuf : (s.setEng { s.eng with ackMatters := true }).buf .targetTx = s.buf .targetTx := by
    rw [State.buf_eq, setEng_eng, setEng_params]
    exact Engine.buffer_congr rfl rfl rfl rfl _
  rcases (s.setEng { s.eng with ackMatters := true }).pop_cases .targetTx with ⟨_, e⟩ | ⟨hne, _⟩
  · simp only [exec, execTDataReq, execTWaitStart, e]
  · simp [hbuf, he] at hne

/-! ## The statements -/

/-- Settles O7: the step of each kind of admitted offer, then the codes run inside engine steps and branches. -/
theorem stepRunsTheDecodedInstruction : Obligations.StepRunsTheDecodedInstruction := by
  unfold Obligations.StepRunsTheDecodedInstruction
  intro s i rest t
  refine ⟨?command, ?event, step_of_engine, ⟨?stop, ?nack, ?ackRecv⟩, ?branches⟩
  case command => exact fun w ins hsched hadm hdec => step_of_command hsched hadm (decodeCommand_of_decode hdec)
  case event => exact fun hsched hadm => ⟨t.dispatchKey, rfl, step_of_event hsched hadm⟩
  case stop => exact State.engineStep_runs_stop
  case nack => exact State.engineStep_runs_nack
  case ackRecv => exact State.engineStep_runs_ackRecv
  case branches => exact fun k => ⟨rfl, rfl, exec_tDataReq_of_isEmpty k⟩

/-- Settles O8: the rule of each kind of offer, and the step that drops one. -/
theorem offersAreTakenWhenAdmitted : Obligations.OffersAreTakenWhenAdmitted := by
  unfold Obligations.OffersAreTakenWhenAdmitted
  intro s i hi e
  refine ⟨State.admits_event_iff hi, fun hone => ⟨?_, ?_⟩, fun _ _ => step_of_not_admits⟩
  · exact State.admits_command_one_iff hone hi
  · exact State.admits_engine_one_iff hone hi

/-- Settles O10: the callback holds its events and the foreground, so none of these offers is admitted. -/
theorem callbackHoldsForegroundAndEvents : Obligations.CallbackHoldsForegroundAndEvents := by
  unfold Obligations.CallbackHoldsForegroundAndEvents
  intro s i j x rest hi hcb hsched hx
  have hheld := State.foregroundFree_eq_false hi hcb
  refine step_of_not_admits hsched ?_
  rcases hx with rfl | rfl | ⟨w, rfl, hj⟩
  · exact State.admits_event_of_callback hcb
  · exact State.admits_engine_of_held hheld
  · exact State.admits_command_of_held hheld hj w

end Sys2Proof.Machine
end

section
/-! PROOFS. The command registers MCMD and SCMD (R120 to R129, R134): a code is the write of its byte, and over a step
both registers change only by writes of the codes the rules issue. -/

namespace Sys2Proof.Machine

/-! ## The codes as instructions -/

theorem State.masterCommand_issuedMaster (s : State) (c : MasterCommand) :
    s.issuedMaster (s.masterCommand c) c.code :=
  ⟨State.framed_intro (by simp) (by simp) (by simp) (by simp) (by simp),
    State.sameCells_intro (by simp) (by simp) fun b _ => by cases b <;> simp [Engine.buffer],
    masterCommand_eng s c, masterCommand_trace s c⟩

theorem State.targetCommand_issuedTarget (s : State) (c : TargetCommand) :
    s.issuedTarget (s.targetCommand c) c.code :=
  ⟨State.framed_intro (by simp) (by simp) (by simp) (by simp) (by simp),
    State.sameCells_intro (by simp) (by simp) fun b _ => by cases b <;> simp [Engine.buffer],
    targetCommand_eng s c, targetCommand_trace s c⟩

/-! ## A register changes only by an observed write -/

/-- Since `s` register `r` of either engine has changed only to a value the engine was seen writing to it. -/
def State.showsWrites (r : PortReg) (s t : State) : Prop :=
  ∃ new, t.trace = s.trace ++ new ∧ ∀ i, (t.engineOf i).port.get r = (s.engineOf i).port.get r ∨
    (i, .portWrite r ((t.engineOf i).port.get r)) ∈ new

section
variable {s t u : State} {r : PortReg}

theorem State.showsWrites.refl (r : PortReg) (s : State) : s.showsWrites r s :=
  ⟨[], by simp, fun _ => .inl rfl⟩

/-- An operation on the selected engine that leaves the register alone or is seen writing it. -/
theorem State.showsWrites.step (h : s.showsWrites r t) (new : List (InstId × Obs))
    (hport : u.eng.port.get r = t.eng.port.get r ∨ (t.sel, .portWrite r (u.eng.port.get r)) ∈ new)
    (htrace : u.trace = t.trace ++ new := by simp) (hsel : u.sel = t.sel := by simp)
    (hother : u.otherEngine = t.otherEngine := by simp) : s.showsWrites r u := by
  obtain ⟨old, hold, hports⟩ := h
  refine ⟨old ++ new, by simp [htrace, hold], fun i => ?_⟩
  have hi := hports i
  rw [t.engineOf_cases i] at hi
  rw [u.engineOf_cases i, hsel, hother]
  by_cases his : i = t.sel
  · subst his
    rw [if_pos rfl] at hi ⊢
    rcases hport with he | hmem
    · rw [he]; exact hi.imp_right (List.mem_append_left _)
    · exact .inr (List.mem_append_right _ hmem)
  · rw [if_neg his] at hi ⊢
    exact hi.imp_right (List.mem_append_left _)

/-- An engine write shows what it writes, but for SSTATUS, where ones clear. -/
theorem State.showsWrites.writePort (h : s.showsWrites r t) (hr : r ≠ .sstatus) (r' : PortReg) (v : Byte) :
    s.showsWrites r (t.writePort r' v) := by
  refine h.step [(t.sel, .portWrite r' v)] ?_
  by_cases hrr : r = r'
  · subst hrr
    simp [Port.get_engineWrite_same _ _ _ hr]
  · exact .inl (by simp [Port.get_engineWrite_other _ _ _ _ hrr])

theorem ne_sstatus_of_command (hr : r = .mcmd ∨ r = .scmd) : r ≠ .sstatus := by
  rcases hr with rfl | rfl <;> decide

/-- Every operation shows its writes of a command register, which the peripheral never writes (R40). -/
theorem showsWrites_kept (hr : r = .mcmd ∨ r = .scmd) (s : State) : KeptBySession (State.showsWrites r s) where
  emit {t} o h := h.step [(t.sel, o)] (.inl rfl)
  draw _ h := h
  raise _ h := h.step [] (.inl (by simp))
  transaction _ _ _ _ _ h := h.step [] (.inl (by simp))
  txnAddress _ h := h.step [] (.inl (by simp))
  incoming _ h := h.step [] (.inl (by simp))
  writeData r' v _ h := h.writePort (ne_sstatus_of_command hr) r' v
  masterCommand _ h := h.writePort (ne_sstatus_of_command hr) _ _
  targetCommand _ h := h.writePort (ne_sstatus_of_command hr) _ _
  periphStep {t} ws h := h.step [] (.inl (by
    obtain ⟨-, -, hmcmd, -, -, -, hscmd, -⟩ := t.eng.port.periphWrites_keeps ws
    rcases hr with rfl | rfl <;> simpa [Port.get]))
  setBuf _ _ _ h := h.step [] (.inl (by simp))
  session _ _ _ _ _ _ h := h.step [] (.inl (by simp))
  writePort r' v h := h.writePort (ne_sstatus_of_command hr) r' v

theorem step_showsWrites (hr : r = .mcmd ∨ r = .scmd) (hstep : step s = .next t) : s.showsWrites r t := by
  have hK := showsWrites_kept hr s
  have htaking : ∀ i rest, s.showsWrites r (s.taking i rest) := fun _ _ => .refl r s
  have hexec : ∀ {i u}, s.showsWrites r u → exec i u = .next t → s.showsWrites r t := fun h he =>
    hK.keeps_exec h (fun _ _ => h.step [] (.inl (by simp))) (fun _ _ => h.step [] (.inl (by simp))) he
  cases step_cases hstep with
  | waits hsched ht => exact ht ▸ .refl r s
  | drops x rest hsched hadm ht => exact ht ▸ .refl r s
  | refuses i w reason rest hsched hadm hdec ht => exact ht ▸ hK.refuse reason (htaking i rest)
  | command i w ins rest hsched hadm hdec he => exact hexec (htaking i rest) he
  | engine i rest hsched hadm ht => exact ht ▸ hK.engineStep (htaking i rest)
  | event i rest hsched hadm he => exact hexec (hK.noteRead .sstatus (htaking i rest)) he
  | periph i ws rest hsched hadm ht => exact ht ▸ hK.periphStep ws (htaking i rest)

end

/-! ## The codes the rules issue -/

@[simp] theorem MasterCommand.code_inj (c c' : MasterCommand) : c.code = c'.code ↔ c = c' := by
  cases c <;> cases c' <;> decide

@[simp] theorem TargetCommand.code_inj (c c' : TargetCommand) : c.code = c'.code ↔ c = c' := by
  cases c <;> cases c' <;> decide

@[simp] theorem readEndCommand_ne_repStart (stop : Bool) : readEndCommand stop ≠ .repStart := by
  cases stop <;> decide

/-- An engine write of a command register is of a code some rule issues: of R120 all but M_REPSTART (R126). -/
@[simp] def Obs.isIssued : Obs → Prop
  | .portWrite .mcmd v => ∃ c : MasterCommand, c ≠ .repStart ∧ c.code = v
  | .portWrite .scmd v => ∃ c : TargetCommand, c.code = v
  | _ => True

theorem mem_of_isIssued_mcmd {v : Byte} (h : (Obs.portWrite .mcmd v).isIssued) :
    v ∈ ([0x02, 0x03, 0x04, 0x07] : List Byte) := by
  obtain ⟨c, hc, rfl⟩ := h
  cases c with
  | repStart => exact absurd rfl hc
  | ackRecv | stop | nackHold | nackStop => decide

theorem mem_of_isIssued_scmd {v : Byte} (h : (Obs.portWrite .scmd v).isIssued) :
    v ∈ ([0x02, 0x03, 0x06] : List Byte) := by
  obtain ⟨c, rfl⟩ := h
  cases c <;> decide

/-- Since `s` the command registers were written with issued codes only. -/
@[simp] def State.issues (s t : State) : Prop :=
  ∃ new, t.trace = s.trace ++ new ∧ new.Forall (fun o => o.2.isIssued)

@[simp] theorem tryPush_trace (s : State) (b : BufName) (v : Byte) : (s.tryPush b v).2.trace = s.trace :=
  State.tryPush_elim (P := fun t => t.trace = s.trace) (by simp) (by simp)

@[simp] theorem tryPush_sel (s : State) (b : BufName) (v : Byte) : (s.tryPush b v).2.sel = s.sel :=
  State.tryPush_elim (P := fun t => t.sel = s.sel) (by simp) (by simp)

@[simp] theorem pop_trace (s : State) (b : BufName) : (s.pop b).2.trace = s.trace :=
  State.pop_elim (P := fun t => t.trace = s.trace) rfl (by simp)

section
variable {s t u : State}

theorem State.issues.trans (h : s.issues t) (h' : t.issues u) : s.issues u := by
  obtain ⟨old, hold, hissued⟩ := h
  obtain ⟨new, hnew, hissued'⟩ := h'
  exact ⟨old ++ new, by simp [hold, hnew], List.forall_append.mpr ⟨hissued, hissued'⟩⟩

theorem State.issues.emit {o : Obs} (h : s.issues t) (ho : o.isIssued := by trivial) : s.issues (t.emit o) :=
  h.trans ⟨[(t.sel, o)], by simp, by simpa using ho⟩

/-! ### Master Engine steps -/

theorem State.issues.finishWrite (h : s.issues t) : s.issues t.finishWrite := by
  cases hstop : t.eng.mSendStop <;> exact h.trans (by simp [State.finishWrite, hstop])

theorem State.sendNext_issues (s : State) : s.issues s.sendNext := by
  have hpop : s.issues (s.pop .masterTx).2 := by simp
  unfold State.sendNext
  split <;> rename_i hp <;> rw [hp] at hpop
  · exact hpop.trans (by simp)
  · exact hpop.finishWrite

theorem State.stepDataWrite_issues (s : State) (st : Byte) : s.issues (s.stepDataWrite st) :=
  keeps_ite (by simp) (keeps_ite (.finishWrite (keeps_ite (by simp) (by simp))) s.sendNext_issues)

theorem State.engineStep_issues (s : State) : s.issues s.engineStep := by
  have ht : s.issues (s.noteRead .mstatus) := by simp
  unfold State.engineStep
  split
  · simp
  · exact ht.trans (keeps_ite (by simp) (by simp))
  · exact ht.trans (keeps_ite (by simp) (by simp))
  · exact ht.trans (keeps_ite (by simp) (keeps_ite (by simp) (by simp)))
  · exact ht.trans (keeps_ite (by simp) (keeps_ite (by simp) (keeps_ite (by simp) (by simp))))
  · exact ht.trans (State.stepDataWrite_issues _ _)
  · exact ht.trans (keeps_ite (by simp) (keeps_ite (by simp) (keeps_ite (by simp) (by simp))))
  · exact ht.trans (keeps_ite (by simp) (by simp))

/-! ### Instructions -/

theorem State.issues.requestPhase (h : s.issues t) : s.issues t.requestPhase :=
  State.requestPhase_elim (fun _ => h.trans (by simp)) (h.trans (by simp))

theorem State.issues.reprogram (h : s.issues t) (new m : Byte) (fast : Bool) : s.issues (t.reprogram new m fast) :=
  h.trans (keeps_ite (by simp) (by simp))

theorem State.setBaud_issues (s : State) (f : Hertz) : s.issues (s.setBaud f) :=
  have hread : s.issues ((s.noteRead .mbaud).noteRead .mctrla) := by simp
  keeps_ite (by simp) (keeps_ite (by simp) (hread.reprogram _ _ _).emit)

/-- Only M_REPSTART writes a code that no rule issues. -/
theorem exec_issues {i : Instr} (hi : i ≠ .mRepstart) (he : exec i s = .next t) : s.issues t := by
  have hrefuse : s.issues (s.refuse .wrongContext) := by simp
  cases i with
  | beginTransmission | endTransmission | request | disableMaster | disableTarget | onReceive | onRequest | selectPins
  | swapPins | pullups => cases he; exact State.inForeground_elim hrefuse fun _ => by simp
  | enableMaster | enableTarget | calcBaud =>
    cases he; exact State.inForeground_elim hrefuse fun _ => keeps_ite (by simp) (by simp)
  | flush =>
    cases he
    exact State.inForeground_elim hrefuse fun _ => .emit (keeps_ite (by simp [State.cycle]) (by simp [State.cycle]))
  | setClock f => cases he; exact State.inForeground_elim hrefuse fun _ => s.setBaud_issues f
  | getIncoming => cases he; exact keeps_ite (by simp) (by simp)
  | cbReturn =>
    exact exec_cbReturn_elim (fun _ => hrefuse) (fun _ => by simp) (fun _ => .requestPhase (by simp))
      (fun _ => by simp) he
  | tStop => cases he; exact State.deliverRx_elim (fun _ _ => by simp) (by simp)
  | tAddrR => cases he; exact State.deliverRx_elim (fun _ _ => by simp) (.requestPhase (by simp))
  | tDataRx => cases he; exact keeps_ite (by simp) (by simp)
  | tDataReq =>
    have hpop : s.issues ((s.setEng { s.eng with ackMatters := true }).pop .targetTx).2 := by simp
    simp only [exec, execTDataReq] at he
    split at he <;> rename_i hp <;> rw [hp] at hpop <;> cases he <;> exact hpop.trans (by simp)
  | mRepstart => exact absurd rfl hi
  | write | available | read | peek | tBuserr | tAddrW | tNack | tIllegal | mAckRecv | mStop | mNackHold | mNackStop
  | tWaitStart | tAckResponse | tNackWaitStart => cases he; simp

/-! ### Steps -/

/-- A word at the command port spells a host command (R101). -/
theorem isHostCommand_of_decodeCommand {w : CommandWord} {i : Instr} (h : decodeCommand w = .ok i) :
    isHostCommand i = true := by
  have hrows : ∀ r ∈ commandTable, ∀ a, isHostCommand (r.build a) = true := by
    simp [commandTable, streamRows, sessionRows, configurationRows, isHostCommand, encode]
  unfold decodeCommand at h
  split at h
  · cases h
  · rename_i r hr
    split at h <;> cases h
    exact hrows r (List.mem_of_find?_eq_some hr) _

/-- A key selects a branch (R110). -/
theorem isBranch_decodeKey (k : Key) : isBranch (decodeKey k) = true := by
  simp only [decodeKey]
  repeat' split
  all_goals rfl

theorem step_issues (hstep : step s = .next t) : s.issues t := by
  have htaking : ∀ i rest, s.issues (s.taking i rest) := fun _ _ => ⟨[], by simp [State.taking]⟩
  cases step_cases hstep with
  | waits hsched ht => simp [ht]
  | drops x rest hsched hadm ht => simp [ht]
  | refuses i w reason rest hsched hadm hdec ht => exact ht ▸ (htaking i rest).emit
  | command i w ins rest hsched hadm hdec he =>
    have hhost := isHostCommand_of_decodeCommand hdec
    exact (htaking i rest).trans (exec_issues (fun e => by simp [e, isHostCommand, encode] at hhost) he)
  | engine i rest hsched hadm ht => exact ht ▸ (htaking i rest).trans (s.taking i rest).engineStep_issues
  | event i rest hsched hadm he =>
    have hbranch := isBranch_decodeKey (s.taking i rest).dispatchKey
    exact (htaking i rest).emit.trans (exec_issues (fun e => by simp [e, isBranch, encode] at hbranch) he)
  | periph i ws rest hsched hadm ht => exact (htaking i rest).trans (by simp [ht])

end

/-! ## The statement -/

/-- Settles O36: over a step the two registers show their writes, whose values are codes the rules issue; and a code as
an instruction is one of the two operations that issue it. -/
theorem commandCodesWriteTheirByte : Obligations.CommandCodesWriteTheirByte := by
  unfold Obligations.CommandCodesWriteTheirByte
  refine ⟨fun s t hstep => ?_, fun s => ⟨?_, ?_, ?_, ?_, ?_, ?_, ?_, ?_⟩⟩
  · obtain ⟨new, htrace, hissued⟩ := step_issues hstep
    obtain ⟨_, hm, hmcmd⟩ := step_showsWrites (.inl rfl) hstep
    obtain ⟨_, hs, hscmd⟩ := step_showsWrites (.inr rfl) hstep
    cases List.append_cancel_left (htrace.symm.trans hm)
    cases List.append_cancel_left (htrace.symm.trans hs)
    rw [List.forall_iff_forall_mem] at hissued
    exact ⟨new, htrace, fun _ _ hmem => mem_of_isIssued_mcmd (hissued _ hmem),
      fun _ _ hmem => mem_of_isIssued_scmd (hissued _ hmem), fun i => ⟨(hmcmd i).resolve_left, (hscmd i).resolve_left⟩⟩
  · exact ⟨_, rfl, s.masterCommand_issuedMaster .repStart⟩
  · exact ⟨_, rfl, s.masterCommand_issuedMaster .ackRecv⟩
  · exact ⟨_, rfl, s.masterCommand_issuedMaster .stop⟩
  · exact ⟨_, rfl, s.masterCommand_issuedMaster .nackHold⟩
  · exact ⟨_, rfl, s.masterCommand_issuedMaster .nackStop⟩
  · exact ⟨_, rfl, s.targetCommand_issuedTarget .waitStart⟩
  · exact ⟨_, rfl, s.targetCommand_issuedTarget .ackResponse⟩
  · exact ⟨_, rfl, s.targetCommand_issuedTarget .nackWaitStart⟩

end Sys2Proof.Machine
end

section
/-! PROOFS. The dispatcher's decode of the status key and the (mask, match) pairs of R110, both read bit by bit. -/

namespace Sys2Proof

/-- A (mask, match) test, bit by bit (R110). -/
theorem Key.and_eq_iff (k mask pattern : Key) : k &&& mask = pattern ↔
    (k[0] && mask[0]) = pattern[0] ∧ (k[1] && mask[1]) = pattern[1] ∧ (k[2] && mask[2]) = pattern[2] ∧
    (k[3] && mask[3]) = pattern[3] ∧ (k[4] && mask[4]) = pattern[4] ∧ (k[5] && mask[5]) = pattern[5] ∧
    (k[6] && mask[6]) = pattern[6] ∧ (k[7] && mask[7]) = pattern[7] ∧ (k[8] && mask[8]) = pattern[8] := by
  constructor
  · rintro rfl; simp
  · rintro ⟨h0, h1, h2, h3, h4, h5, h6, h7, h8⟩
    ext i hi
    rw [BitVec.getElem_and]
    interval_cases i <;> assumption

/-- The decode of R211 on the bits of the key: an error bit (2 or 3) first, then DIF and APIF (7 and 6), then the phase
(0) and direction (1) of an address phase, or the direction and the two halves (8 and 4) of the test for T_NACK. -/
theorem decodeKey_eq (k : Key) : decodeKey k =
    if k[2] || k[3] then .tBuserr k
    else if k[7] == k[6] then .tIllegal k
    else if k[6] then (if !k[0] then .tStop k else if !k[1] then .tAddrW k else .tAddrR k)
    else if !k[1] then .tDataRx k else if k[8] && k[4] then .tNack k else .tDataReq k := by
  cases hdif : k[7] <;> cases hapif : k[6] <;> simp [decodeKey, Key.status, Key.ackMatters, hdif, hapif]

/-- A key read back as its two fields (R110). -/
theorem status_ackMatters_of_eq_append {k : Key} {a : Bool} {st : Byte} (h : k = BitVec.ofBool a ++ st) :
    k.status = st ∧ k.ackMatters = a :=
  h ▸ ⟨status_mk a st, ackMatters_mk a st⟩

/-- Settles O3: both sides depend on the same bits of the key, and the cases are the tests of R211 on them, in order. -/
theorem keyPairsSelectTheBranch : Obligations.KeyPairsSelectTheBranch := by
  unfold Obligations.KeyPairsSelectTheBranch
  intro k
  have hfields : ∀ a st, k = BitVec.ofBool a ++ st → k.status = st ∧ k.ackMatters = a := fun _ _ =>
    status_ackMatters_of_eq_append
  simp only [Key.and_eq_iff, decodeKey_eq, eq_true hfields, and_true]
  cases hbuserr : k[2] with
  | true => simp
  | false =>
    cases hcoll : k[3] with
    | true => simp
    | false =>
      cases hdif : k[7] <;> cases hapif : k[6]
      case false.false => simp
      case true.true => simp
      case false.true => cases hap : k[0] <;> cases hdir : k[1] <;> simp
      case true.false => cases hdir : k[1] <;> cases hack : k[8] <;> cases hnack : k[4] <;> simp

end Sys2Proof
end

section
/-! PROOFS. Refused commands: by the decoder, for an unknown opcode or a reserved bit, and by an instruction in a
context that does not admit it (R132, R275, R298). -/

namespace Sys2Proof.Machine

/-! ## The refusal -/

/-- A refusal is observed and changes nothing (R298). -/
theorem State.refuse_refusedWith (s : State) (r : RefuseReason) : s.refusedWith (s.refuse r) r :=
  ⟨State.framed_intro (by simp) (by simp) (by simp) (by simp) (by simp),
    State.sameCells_intro (by simp) (by simp) fun _ _ => by simp, refuse_eng s r, refuse_trace s r⟩

/-! ## Words -/

/-- An admitted word the decoder refuses (R132). -/
theorem step_of_refused_word {s : State} {i : InstId} {w : CommandWord} {r : RefuseReason} {rest : List Stimulus}
    (hsched : s.schedule = .command i w :: rest) (hadm : s.admits (.command i w) = true)
    (hdec : decodeCommand w = .refuse r) : step s = .next ((s.taking i rest).refuse r) := by
  simp only [step, State.fetch_of_admits hsched hadm, State.take, State.fetchCommand, hdec]
  rfl

/-- A word whose opcode the map of R101 does not hold. -/
theorem decodeCommand_of_unknown {w : CommandWord} (h : w.op ∉ commandTable.map CommandRow.opcode) :
    decodeCommand w = .refuse .unknownOpcode := by
  have hnone : lookupCommand w.op = none :=
    List.find?_eq_none.mpr fun r hr he => h (List.mem_map.mpr ⟨r, hr, by simpa using he⟩)
  simp only [decodeCommand, hnone]

/-- The rows of the map have different opcodes (R101). -/
theorem lookupCommand_opcode : ∀ r ∈ commandTable, lookupCommand r.opcode = some r := by
  simp [commandTable, streamRows, sessionRows, configurationRows, lookupCommand]

/-- A known opcode with a reserved bit of its format set. -/
theorem decodeCommand_of_reserved {w : CommandWord} {r : CommandRow} (hr : r ∈ commandTable) (hop : w.op = r.opcode)
    (hbits : w.arg &&& r.format.reserved ≠ 0) : decodeCommand w = .refuse .reservedBits := by
  simp only [decodeCommand, hop, lookupCommand_opcode r hr, if_neg hbits]

/-! ## Contexts -/

/-- The host commands but CB_RETURN that R275 does not admit in a callback run in foreground context only. -/
theorem exec_eq_inForeground {i : Instr} (hhost : isHostCommand i = true) (hret : i ≠ .cbReturn)
    (hboth : inBothContexts i = false) (s : State) : ∃ f, exec i s = .next (s.inForeground f) := by
  cases i with
  | beginTransmission | endTransmission | request | flush | enableMaster | enableTarget | disableMaster | disableTarget
  | setClock | onReceive | onRequest | calcBaud | selectPins | swapPins | pullups => exact ⟨_, rfl⟩
  | write | available | read | peek | getIncoming => cases hboth
  | cbReturn => exact absurd rfl hret
  | _ => cases hhost

/-! ## The statement -/

/-- Settles O9: the decoder refuses the word, or the instruction runs in the other context only; each refusal is the one
state `State.refuse` gives. -/
theorem refusedCommandsChangeNothing : Obligations.RefusedCommandsChangeNothing := by
  unfold Obligations.RefusedCommandsChangeNothing
  refine ⟨fun s i w rest hsched hadm => ⟨fun hop => ?_, fun r hr hop hbits => ?_⟩, fun s i hhost hret hboth hcb => ?_,
    fun s hcb => ?_⟩
  · exact ⟨_, step_of_refused_word hsched hadm (decodeCommand_of_unknown hop), State.refuse_refusedWith _ _⟩
  · exact ⟨_, step_of_refused_word hsched hadm (decodeCommand_of_reserved hr hop hbits), State.refuse_refusedWith _ _⟩
  · obtain ⟨f, he⟩ := exec_eq_inForeground hhost hret hboth s
    exact ⟨_, he, s.inForeground_refuse f hcb ▸ s.refuse_refusedWith .wrongContext⟩
  · exact ⟨_, by simp only [exec, execCbReturn, hcb], s.refuse_refusedWith .wrongContext⟩

end Sys2Proof.Machine
end

section
/-! PROOFS. The ring buffer as a queue of its unread bytes, and first in, first out (R142 to R152). -/

namespace Sys2Proof.Machine

/-! ## What is available -/

theorem RingBuffer.available_lt {n : Nat} {rb : RingBuffer} (h : rb.wf n = true) : rb.available n < n :=
  Nat.mod_lt _ (by have := ((rb.wf_iff n).mp h).1; omega)

/-- A successful push adds one byte, a rejected one none (R144, R149). -/
theorem RingBuffer.available_tryPush {n : Nat} {rb : RingBuffer} (h : rb.wf n = true) (b : Byte) :
    (rb.tryPush n b).2.available n = rb.available n + (if (rb.tryPush n b).1 then 1 else 0) := by
  obtain ⟨hh, ht, _⟩ := (rb.wf_iff n).mp h
  obtain ⟨hh', ht', _⟩ := ((rb.tryPush n b).2.wf_iff n).mp (rb.tryPush_wf n b h)
  rw [RingBuffer.available_eq n _ hh' ht', RingBuffer.available_eq n rb hh ht]
  rcases rb.tryPush_cases n b with ⟨_, e⟩ | ⟨hfull, e⟩ <;> rw [e]
  · simp
  · have hroom : ¬adv n rb.head = rb.tail := by simpa [RingBuffer.isFull] using hfull
    simp only [adv_eq n rb.head hh, if_true] at hroom ⊢
    split_ifs at hroom ⊢ <;> omega

/-- A successful pop takes one byte away, a pop that answers none takes none (R145, R149). -/
theorem RingBuffer.available_pop {n : Nat} {rb : RingBuffer} (h : rb.wf n = true) :
    (rb.pop n).2.available n + (if (rb.pop n).1.isSome then 1 else 0) = rb.available n := by
  obtain ⟨hh, ht, _⟩ := (rb.wf_iff n).mp h
  obtain ⟨hh', ht', _⟩ := ((rb.pop n).2.wf_iff n).mp (rb.pop_wf n h)
  rw [RingBuffer.available_eq n _ hh' ht', RingBuffer.available_eq n rb hh ht]
  rcases rb.pop_cases n with ⟨_, e⟩ | ⟨hempty, e⟩ <;> rw [e]
  · simp
  · have hne : ¬rb.head = rb.tail := by simpa [RingBuffer.isEmpty] using hempty
    simp only [adv_eq n rb.tail ht, Option.isSome_some, if_true]
    split_ifs <;> omega

/-! ## The unread bytes -/

@[simp] theorem RingBuffer.length_unread (n : Nat) (rb : RingBuffer) : (rb.unread n).length = rb.available n := by
  simp [RingBuffer.unread]

/-- Only the cell behind the unread ones is the one `head` points at (R149). -/
theorem RingBuffer.tail_add_mod_eq_head_iff {n : Nat} {rb : RingBuffer} (h : rb.wf n = true) {k : Nat} (hk : k < n) :
    (rb.tail + k) % n = rb.head ↔ k = rb.available n := by
  obtain ⟨hh, ht, _⟩ := (rb.wf_iff n).mp h
  rw [RingBuffer.available_eq n rb hh ht]
  by_cases hwrap : rb.tail + k < n
  · rw [Nat.mod_eq_of_lt hwrap]; split <;> omega
  · rw [Nat.mod_eq_sub_mod (by omega), Nat.mod_eq_of_lt (by omega)]; split <;> omega

/-- An accepted byte is the last of the unread ones (R144). -/
theorem RingBuffer.unread_tryPush {n : Nat} {rb : RingBuffer} (h : rb.wf n = true) {b : Byte}
    (hacc : (rb.tryPush n b).1 = true) : (rb.tryPush n b).2.unread n = rb.unread n ++ [b] := by
  have hcount := RingBuffer.available_tryPush h b
  obtain ⟨_, _, hs⟩ := (rb.wf_iff n).mp h
  have hlt := RingBuffer.available_lt h
  rcases rb.tryPush_cases n b with ⟨_, e⟩ | ⟨_, e⟩
  · simp [e] at hacc
  · simp only [e, if_true] at hcount ⊢
    simp only [RingBuffer.unread, hcount, List.range_succ, List.map_append, List.map_cons, List.map_nil]
    congr 1
    · refine List.map_congr_left fun k hk => Memory.read_write_other n _ _ _ _ hs ?_
      have := List.mem_range.mp hk
      rw [Ne, RingBuffer.tail_add_mod_eq_head_iff h (by omega)]
      omega
    · rw [(RingBuffer.tail_add_mod_eq_head_iff h hlt).mpr rfl, Memory.read_write_same n _ _ _ hs]

/-- A pop answers the oldest unread byte and leaves the others; of an empty buffer it answers none (R145). -/
theorem RingBuffer.pop_unread {n : Nat} {rb : RingBuffer} (h : rb.wf n = true) :
    (rb.pop n).1 = (rb.unread n).head? ∧ (rb.pop n).2.unread n = (rb.unread n).tail := by
  have hcount := RingBuffer.available_pop h
  obtain ⟨hh, ht, _⟩ := (rb.wf_iff n).mp h
  rcases rb.pop_cases n with ⟨hempty, e⟩ | ⟨_, e⟩ <;> rw [e] at hcount ⊢
  · have hnone : rb.unread n = [] := by
      rw [← List.length_eq_zero_iff, rb.length_unread, ← rb.isEmpty_iff n hh ht, hempty]
    simp [hnone]
  · have hcell (k : Nat) : (adv n rb.tail + k) % n = (rb.tail + (k + 1)) % n := by
      rw [adv, Nat.mod_add_mod, Nat.add_assoc, Nat.add_comm 1 k]
    simp only [Option.isSome_some, if_true] at hcount
    simp [RingBuffer.unread, ← hcount, List.range_succ_eq_map, hcell, Nat.mod_eq_of_lt ht, Function.comp_def]

@[simp] theorem RingBuffer.unread_rewind (n : Nat) (rb : RingBuffer) : rb.rewind.unread n = [] := by
  simp [RingBuffer.unread]

@[simp] theorem RingBuffer.unread_discard (n : Nat) (rb : RingBuffer) : rb.discard.unread n = [] := by
  simp [RingBuffer.unread]

/-! ## Bytes in a row -/

/-- A push is accepted while fewer than N-1 bytes are held (R143, R144). -/
theorem RingBuffer.tryPush_accepts {n : Nat} {rb : RingBuffer} (h : rb.wf n = true) (b : Byte)
    (hroom : rb.available n < n - 1) : (rb.tryPush n b).1 = true := by
  obtain ⟨hh, ht, _⟩ := (rb.wf_iff n).mp h
  rcases rb.tryPush_cases n b with ⟨hfull, _⟩ | ⟨_, e⟩
  · have := (rb.isFull_iff n hh ht).mp hfull
    omega
  · rw [e]

/-- An accepted push, and the rest of the bytes after it (R136). -/
theorem RingBuffer.pushAll_cons_of_accepted {n : Nat} {rb : RingBuffer} {b : Byte} (rest : List Byte)
    (hacc : (rb.tryPush n b).1 = true) : (rb.pushAll n (b :: rest)).2 = ((rb.tryPush n b).2.pushAll n rest).2 := by
  rcases rb.tryPush_cases n b with ⟨_, e⟩ | ⟨_, e⟩
  · simp [e] at hacc
  · simp only [RingBuffer.pushAll, e]

theorem RingBuffer.pushAll_wf {n : Nat} {bytes : List Byte} : ∀ {rb : RingBuffer}, rb.wf n = true →
    (rb.pushAll n bytes).2.wf n = true := by
  induction bytes with
  | nil => exact id
  | cons b rest ih =>
    intro rb h
    have hpush := rb.tryPush_wf n b h
    rcases rb.tryPush_cases n b with ⟨_, e⟩ | ⟨_, e⟩ <;> rw [e] at hpush <;> simp only [RingBuffer.pushAll, e]
    · exact h
    · exact ih hpush

/-- Bytes that fit are the last of the unread ones, in the order of their pushes (R264). -/
theorem RingBuffer.unread_pushAll_of_fits {n : Nat} {bytes : List Byte} : ∀ {rb : RingBuffer}, rb.wf n = true →
    rb.available n + bytes.length ≤ n - 1 → (rb.pushAll n bytes).2.unread n = rb.unread n ++ bytes := by
  induction bytes with
  | nil => simp [RingBuffer.pushAll]
  | cons b rest ih =>
    intro rb h hfit
    rw [List.length_cons] at hfit
    have hacc := RingBuffer.tryPush_accepts h b (by omega)
    have hcount := RingBuffer.available_tryPush h b
    rw [hacc, if_pos rfl] at hcount
    rw [RingBuffer.pushAll_cons_of_accepted rest hacc, ih (rb.tryPush_wf n b h) (by omega),
      RingBuffer.unread_tryPush h hacc, List.append_assoc, List.singleton_append]

/-- Pops in a row answer the unread bytes, oldest first, and then none (R145). -/
theorem RingBuffer.popMany_unread {n : Nat} {q : List Byte} : ∀ {rb : RingBuffer}, rb.wf n = true →
    rb.unread n = q → rb.popMany n (q.length + 1) = q.map some ++ [none] := by
  induction q with
  | nil =>
    intro rb h hq
    simp [RingBuffer.popMany, (RingBuffer.pop_unread h).1, hq]
  | cons b rest ih =>
    intro rb h hq
    obtain ⟨hfirst, hothers⟩ := RingBuffer.pop_unread h
    rw [hq] at hfirst hothers
    rw [List.length_cons, RingBuffer.popMany, hfirst, ih (rb.pop_wf n h) hothers]
    rfl

/-- On a buffer that holds nothing, up to N-1 bytes are popped in the order they are pushed (R152). -/
theorem RingBuffer.popMany_pushAll {n : Nat} {rb : RingBuffer} {bytes : List Byte} (h : rb.wf n = true)
    (hempty : rb.unread n = []) (hfit : bytes.length ≤ n - 1) :
    (rb.pushAll n bytes).2.popMany n (bytes.length + 1) = bytes.map some ++ [none] := by
  have hnone : rb.available n = 0 := by rw [← rb.length_unread, hempty, List.length_nil]
  refine RingBuffer.popMany_unread (RingBuffer.pushAll_wf h) ?_
  rw [RingBuffer.unread_pushAll_of_fits h (by omega), hempty, List.nil_append]

/-! ## Any sequence of pushes and pops -/

/-- What is available at the end and what was popped are what was available at first and what was pushed (R152). -/
theorem RingBuffer.available_tally {n : Nat} {ops : List RingOp} : ∀ {rb : RingBuffer}, rb.wf n = true →
    (rb.tally n ops).1.available n + (rb.tally n ops).2.2 = rb.available n + (rb.tally n ops).2.1 := by
  induction ops with
  | nil => exact fun _ => rfl
  | cons op rest ih =>
    intro rb h
    cases op with
    | push b =>
      have hone := RingBuffer.available_tryPush h b
      have hrest := ih (rb.tryPush_wf n b h)
      simp only [RingBuffer.tally]
      omega
    | pop =>
      have hone := RingBuffer.available_pop h
      have hrest := ih (rb.pop_wf n h)
      simp only [RingBuffer.tally]
      omega

/-! ## The statement -/

/-- Settles O55: the unread bytes are a queue that pushes append to and pops take from, and each operation changes
`available` by what it counts. -/
theorem firstInFirstOut : Obligations.FirstInFirstOut := by
  unfold Obligations.FirstInFirstOut
  intro n rb h _
  refine ⟨fun bytes hfit => ⟨?_, ?_⟩, fun hempty ops => ?_⟩
  · exact RingBuffer.popMany_pushAll (rb.discard_wf n h) (rb.unread_discard n) hfit
  · exact RingBuffer.popMany_pushAll (rb.rewind_wf n h) (rb.unread_rewind n) hfit
  · obtain ⟨hh, ht, _⟩ := (rb.wf_iff n).mp h
    have hnone := (rb.isEmpty_iff n hh ht).mp hempty
    have hsum := RingBuffer.available_tally (ops := ops) h
    omega

end Sys2Proof.Machine
end

section
/-! PROOFS. The timing value of R163: its clamp, and its course within a band (R165); CALC_BAUD responds it (R164). -/

namespace Sys2Proof

theorem le_clamp (v : Int) {lo hi : Int} : lo ≤ clamp v lo hi := le_max_left ..

theorem clamp_le (v : Int) {lo hi : Int} (h : lo ≤ hi) : clamp v lo hi ≤ hi := max_le h (min_le_left ..)

theorem clamp_mono {v w : Int} (lo hi : Int) (h : v ≤ w) : clamp v lo hi ≤ clamp w lo hi :=
  max_le_max_left lo (min_le_min_left hi h)

end Sys2Proof

namespace Sys2Proof.Machine

/-! ## The value -/

theorem timing_mem_Icc (p : Params) (f : Nat) : timing p f ∈ Set.Icc 1 255 := ⟨le_clamp _, clamp_le _ (by decide)⟩

/-- The clamped value fits the byte, so the byte holds it (R160). -/
theorem toNat_calcBaud (p : Params) (f : Hertz) : ((calcBaud p f).toNat : Int) = timing p f.toNat := by
  obtain ⟨hlo, hhi⟩ := timing_mem_Icc p f.toNat
  rw [calcBaud, BitVec.toNat_ofNat]
  omega

theorem byteResponse_toNat (b : Byte) : (byteResponse b).toNat = b.toNat :=
  BitVec.toNat_setWidth_of_le (by decide)

/-- Within a band only the quotient depends on the frequency, and it falls (R165). Frequency 0 is left out: there the
quotient is 0. -/
theorem rawTiming_antitone_of_band_eq (p : Params) {f g : Nat} (hf : 0 < f) (hband : band f = band g) (hle : f ≤ g) :
    rawTiming p g ≤ rawTiming p f := by
  have hq : p.cpuClockHz / (2 * g) ≤ p.cpuClockHz / (2 * f) := Nat.div_le_div_left (by omega) (by omega)
  simp only [rawTiming, hband]
  omega

theorem timing_antitone_of_band_eq (p : Params) {f g : Nat} (hf : 0 < f) (hband : band f = band g) (hle : f ≤ g) :
    timing p g ≤ timing p f :=
  clamp_mono 1 255 (rawTiming_antitone_of_band_eq p hf hband hle)

/-- 16 MHz over 200 kHz is 80, and the clock is 16 MHz in the rise term (R165). -/
theorem rawTiming_of_16MHz_100kHz {p : Params} (hclock : p.cpuClockHz = 16000000) :
    rawTiming p 100000 = 80 - (5 + (16 * p.riseNs.get .b0 / 2000 : Nat)) + bandOffset p .b0 := by
  have hband : band 100000 = .b0 := rfl
  simp only [rawTiming, hclock, hband]
  rfl

/-- Settles O26: the clamp bounds the byte, the clamp is monotone over a formula that falls within a band, and at 16 MHz
and 100 kHz the formula is evaluated. -/
theorem timingIsBoundedAndMonotoneInABand : Obligations.TimingIsBoundedAndMonotoneInABand := by
  unfold Obligations.TimingIsBoundedAndMonotoneInABand
  intro p f g hf
  obtain ⟨hlo, hhi⟩ := timing_mem_Icc p f.toNat
  have hvalue := toNat_calcBaud p f
  refine ⟨by omega, by omega, fun hband hle => ?_, fun hclock hf100 => ?_⟩
  · have hpos : 0 < f.toNat := Nat.pos_of_ne_zero (BitVec.toNat_ne.mp hf)
    have hfalls := timing_antitone_of_band_eq p hpos hband hle
    have hvalue' := toNat_calcBaud p g
    omega
  · subst hf100
    rw [hvalue, timing, show (100000 : Hertz).toNat = 100000 from rfl, rawTiming_of_16MHz_100kHz hclock]
    rfl

/-! ## The command -/

theorem exec_calcBaud_of_foreground {s : State} (h : s.eng.cbState = .none) (f : Hertz) : exec (.calcBaud f) s =
    .next (if f = 0 then s.refuse .zeroFrequency else s.respond (byteResponse (calcBaud s.params f))) :=
  congrArg Host.Outcome.next (s.inForeground_run _ h)

/-- Settles O25: the response is the byte of the timing value, which is the formula as R161 to R163 write it. -/
theorem calcBaudRespondsTheFormula : Obligations.CalcBaudRespondsTheFormula := by
  unfold Obligations.CalcBaudRespondsTheFormula
  intro s f hcb
  refine ⟨_, exec_calcBaud_of_foreground hcb f, ?_⟩
  split
  case isTrue => exact s.refuse_refusedWith .zeroFrequency
  case isFalse =>
    refine ⟨State.framed_intro (by simp) (by simp) (by simp) (by simp) (by simp),
      State.sameCells_intro (by simp) (by simp) fun _ _ => by simp, respond_eng .., _, respond_trace .., ?_⟩
    rw [byteResponse_toNat, toNat_calcBaud]
    rfl

end Sys2Proof.Machine
end

section
/-! PROOFS. SET_CLOCK (R166): what the reprogramming leaves in each component of the state, the three paths of the
command, and that the second of two equal commands takes the path that writes nothing. -/

namespace Sys2Proof.Machine

/-! ## The reprogramming, field by field -/

section
variable (s : State) (new m : Byte) (fast : Bool)

@[simp] theorem reprogram_params : (s.reprogram new m fast).params = s.params := by
  unfold State.reprogram; split <;> simp
@[simp] theorem reprogram_sel : (s.reprogram new m fast).sel = s.sel := by
  unfold State.reprogram; split <;> simp
@[simp] theorem reprogram_schedule : (s.reprogram new m fast).schedule = s.schedule := by
  unfold State.reprogram; split <;> simp
@[simp] theorem reprogram_draws : (s.reprogram new m fast).draws = s.draws := by
  unfold State.reprogram; split <;> simp
@[simp] theorem reprogram_otherEngine : (s.reprogram new m fast).otherEngine = s.otherEngine := by
  unfold State.reprogram; split <;> simp

/-- Four port registers are written, MSTATUS only where the saved MCTRLA has the master logic on (R166). -/
@[simp] theorem reprogram_eng : (s.reprogram new m fast).eng = { s.eng with port := { s.eng.port with
    mctrla := if masterLogicOn m then m else 0x00, mbaud := new, ctrla := withFmpEn fast s.eng.port.ctrla,
    mstatus := if masterLogicOn m then forceIdle else s.eng.port.mstatus } } := by
  unfold State.reprogram; split <;> simp [Port.engineWrite, *]

/-- The accesses of the reprogramming, in order (R166). -/
theorem State.reprogram_observed : s.observed (s.reprogram new m fast)
    ([.portWrite .mctrla 0x00, .portWrite .mbaud new, .portRead .ctrla s.eng.port.ctrla,
      .portWrite .ctrla (withFmpEn fast s.eng.port.ctrla)] ++
      if masterLogicOn m then [.portWrite .mctrla m, .portWrite .mstatus forceIdle] else []) := by
  unfold State.reprogram State.observed; split <;> simp [Port.engineWrite]

end

/-! ## The paths of the command -/

section
variable {s : State} {f : Hertz}

theorem exec_setClock_of_foreground (h : s.eng.cbState = .none) : exec (.setClock f) s = .next (s.setBaud f) :=
  congrArg Host.Outcome.next (s.inForeground_run _ h)

/-- `set_baud` (R166): refused at 0, or only the read of MBAUD for an unchanged timing value, or the reprogramming. -/
theorem State.setBaud_cases (s : State) (f : Hertz) :
    (f = 0 ∧ s.setBaud f = s.refuse .zeroFrequency) ∨
    (f ≠ 0 ∧ calcBaud s.params f = s.eng.port.mbaud ∧ s.setBaud f = (s.noteRead .mbaud).respond 0) ∨
    (f ≠ 0 ∧ calcBaud s.params f ≠ s.eng.port.mbaud ∧ s.setBaud f = (((s.noteRead .mbaud).noteRead .mctrla).reprogram
      (calcBaud s.params f) s.eng.port.mctrla (fastMode f)).respond 0) := by
  by_cases hf : f = 0
  · exact .inl ⟨hf, if_pos hf⟩
  · by_cases h : calcBaud s.params f = s.eng.port.mbaud
    · exact .inr (.inl ⟨hf, h, (if_neg hf).trans (if_pos h)⟩)
    · exact .inr (.inr ⟨hf, h, (if_neg hf).trans (if_neg h)⟩)

@[simp] theorem setBaud_params (s : State) (f : Hertz) : (s.setBaud f).params = s.params := by
  obtain ⟨_, e⟩ | ⟨_, _, e⟩ | ⟨_, _, e⟩ := s.setBaud_cases f <;> simp [e]

@[simp] theorem setBaud_cbState (s : State) (f : Hertz) : (s.setBaud f).eng.cbState = s.eng.cbState := by
  obtain ⟨_, e⟩ | ⟨_, _, e⟩ | ⟨_, _, e⟩ := s.setBaud_cases f <;> simp [e]

/-- After `set_baud` the timing register holds the frequency's value, whichever path was taken. -/
theorem State.setBaud_mbaud (hf : f ≠ 0) : (s.setBaud f).eng.port.mbaud = calcBaud s.params f := by
  obtain ⟨h0, _⟩ | ⟨_, hsame, e⟩ | ⟨_, _, e⟩ := s.setBaud_cases f
  · exact absurd h0 hf
  · rw [e, respond_eng, noteRead_eng, hsame]
  · rw [e, respond_eng, reprogram_eng]

/-- The second of two equal settings finds its own value and writes nothing (R166). -/
theorem State.setBaud_setBaud (hf : f ≠ 0) :
    (s.setBaud f).setBaud f = ((s.setBaud f).noteRead .mbaud).respond 0 :=
  have hsame : calcBaud (s.setBaud f).params f = (s.setBaud f).eng.port.mbaud := by
    rw [setBaud_params, State.setBaud_mbaud hf]
  (if_neg hf).trans (if_pos hsame)

end

/-! ## The statements -/

/-- Settles O21: the three paths of the command, each read off field by field. -/
theorem setClockReprogramsOnlyOnChange : Obligations.SetClockReprogramsOnlyOnChange := by
  unfold Obligations.SetClockReprogramsOnlyOnChange
  intro s f hcb
  refine ⟨_, exec_setClock_of_foreground hcb, ?_⟩
  obtain ⟨hf, e⟩ | ⟨hf, hsame, e⟩ | ⟨hf, hnew, e⟩ := s.setBaud_cases f <;> rw [e]
  · obtain ⟨hframe, hcells, hsame⟩ := s.refuse_refusedWith .zeroFrequency
    simp only [if_pos hf]
    exact ⟨hframe, hcells, hframe, hcells, hsame⟩
  · refine ⟨State.framed_intro (by simp) (by simp) (by simp) (by simp) (by simp),
      State.sameCells_intro (by simp) (by simp) fun _ _ => by simp, ?_⟩
    simp only [if_neg hf, if_pos hsame]
    exact ⟨by simp, by simp [State.observed]⟩
  · refine ⟨State.framed_intro (by simp) (by simp) (by simp) (by simp) (by simp),
      State.sameCells_intro (by simp) (by simp) fun b _ => by cases b <;> simp [Engine.buffer], ?_⟩
    simp only [if_neg hf, if_neg hnew]
    refine ⟨?_, ?_, ?_⟩
    · simp [masterLogicOn, withFmpEn, fastMode]
    · simp only [respond_eng, reprogram_eng, noteRead_eng, masterLogicOn]
      split <;> rfl
    · have htrace := State.reprogram_observed ((s.noteRead .mbaud).noteRead .mctrla) (calcBaud s.params f)
        s.eng.port.mctrla (fastMode f)
      simp only [State.observed] at htrace ⊢
      rw [respond_trace, htrace]
      simp [masterLogicOn, withFmpEn, fastMode, forceIdle]

/-- Settles O22: the first command leaves its own timing value in MBAUD, so the second is on the path that only reads. -/
theorem secondSetClockWritesNothing : Obligations.SecondSetClockWritesNothing := by
  unfold Obligations.SecondSetClockWritesNothing
  intro s t f hcb hf hfirst
  rw [exec_setClock_of_foreground hcb] at hfirst
  cases hfirst
  have hcb' : (s.setBaud f).eng.cbState = .none := (setBaud_cbState s f).trans hcb
  refine ⟨_, exec_setClock_of_foreground hcb', ?_, ?_⟩ <;> rw [State.setBaud_setBaud hf]
  · rw [respond_eng, noteRead_eng]
  · simp [State.observed, State.setBaud_mbaud hf]

end Sys2Proof.Machine
end

section
/-! PROOFS. What one Master Engine step can be, said once: the rows of the table of R200, each with the engine after it
and its observations. -/

namespace Sys2Proof.Machine

/-! ## The master buffers -/

@[simp] theorem State.buf_masterTx (s : State) : s.buf .masterTx = s.eng.masterTx := rfl
@[simp] theorem State.buf_masterRx (s : State) : s.buf .masterRx = s.eng.masterRx := rfl

@[simp] theorem Engine.setBuffer_masterTx (e : Engine) (rb : RingBuffer) :
    e.setBuffer .masterTx rb = { e with masterTx := rb } := rfl
@[simp] theorem Engine.setBuffer_masterRx (e : Engine) (rb : RingBuffer) :
    e.setBuffer .masterRx rb = { e with masterRx := rb } := rfl

theorem RingBuffer.pop_of_nonempty {rb : RingBuffer} (n : Nat) (h : rb.isEmpty = false) :
    rb.pop n = (some (rb.storage.read rb.tail), { rb with tail := adv n rb.tail }) := by
  simp [RingBuffer.pop, h]

theorem RingBuffer.tryPush_of_room {n : Nat} {rb : RingBuffer} (b : Byte) (h : rb.isFull n = false) :
    rb.tryPush n b = (true, { rb with storage := rb.storage.write rb.head b, head := adv n rb.head }) := by
  simp [RingBuffer.tryPush, h]

/-! ## The rows -/

/-- The paths of a Master Engine step with buffers of length `n`, from engine `e` in the given state and kind: its tests
on the sample, the engine after it, and what is observed (R183 to R195). -/
inductive EngineRow (n : Nat) (e : Engine) : MState → MKind → Engine → List Obs → Prop
  | rests {k} : EngineRow n e .idle k e []
  | notReady {k} (hbus : busState e.port.mstatus = .unknown) :
    EngineRow n e .start k { e with lastFault := .busNotReady, mstate := .idle }
      [.portRead .mstatus e.port.mstatus, .respond 0]
  | ready {k} (hbus : busState e.port.mstatus ≠ .unknown) :
    EngineRow n e .start k { e with mstate := .waitBus } [.portRead .mstatus e.port.mstatus]
  | busy {k} (hbus : busState e.port.mstatus = .busy) :
    EngineRow n e .waitBus k e [.portRead .mstatus e.port.mstatus]
  | address {k} (hbus : busState e.port.mstatus ≠ .busy) :
    EngineRow n e .waitBus k
      { e with mstate := .addrWait, port := { e.port with maddr := phaseAddress k e.txnAddress } }
      [.portRead .mstatus e.port.mstatus, .portWrite .maddr (phaseAddress k e.txnAddress)]
  | addressPending {k} (hdone : phaseDone e.port.mstatus = false) :
    EngineRow n e .addrWait k e [.portRead .mstatus e.port.mstatus]
  | retry (hdone : phaseDone e.port.mstatus = true) (hlost : mArbLost e.port.mstatus = true) :
    EngineRow n e .addrWait .write { e with lastFault := .arbitrationLost, mstate := .waitBus }
      [.portRead .mstatus e.port.mstatus]
  | addressedWrite (hdone : phaseDone e.port.mstatus = true) (hlost : mArbLost e.port.mstatus = false) :
    EngineRow n e .addrWait .write { e with mN := 0, mstate := .data } [.portRead .mstatus e.port.mstatus]
  | addressNack (hdone : phaseDone e.port.mstatus = true) (hnack : mRxNack e.port.mstatus = true) :
    EngineRow n e .addrWait .read
      { e with mstate := .idle, lastFault := .addressNotAcknowledged,
               port := { e.port with mcmd := MasterCommand.stop.code } }
      [.portRead .mstatus e.port.mstatus, .portWrite .mcmd MasterCommand.stop.code, .respond 0]
  | readsNothing (hdone : phaseDone e.port.mstatus = true) (hnack : mRxNack e.port.mstatus = false)
      (hzero : e.mCount = 0) :
    EngineRow n e .addrWait .read
      { e with mstate := .idle, port := { e.port with mcmd := (readEndCommand e.mSendStop).code } }
      [.portRead .mstatus e.port.mstatus, .portWrite .mcmd (readEndCommand e.mSendStop).code,
       .respond (byteResponse e.mN)]
  | addressedRead (hdone : phaseDone e.port.mstatus = true) (hnack : mRxNack e.port.mstatus = false)
      (hcount : e.mCount ≠ 0) :
    EngineRow n e .addrWait .read { e with mN := 0, mstate := .data } [.portRead .mstatus e.port.mstatus]
  | aborted {k} (habort : phaseAborted e.port.mstatus = true) :
    EngineRow n e .data k { e with mstate := .idle, lastFault := abortCondition e.port.mstatus }
      [.portRead .mstatus e.port.mstatus, .respond 0]
  | dataNack (habort : phaseAborted e.port.mstatus = false) (hnack : mRxNack e.port.mstatus = true) :
    EngineRow n e .data .write
      { e with mstate := .idle, mSendStop := true, port := { e.port with mcmd := MasterCommand.stop.code },
               lastFault := if e.mN = 0 then .addressNotAcknowledged else e.lastFault }
      [.portRead .mstatus e.port.mstatus, .portWrite .mcmd MasterCommand.stop.code, .respond (byteResponse e.mN)]
  | sends (habort : phaseAborted e.port.mstatus = false) (hnack : mRxNack e.port.mstatus = false)
      (hmore : e.masterTx.isEmpty = false) :
    EngineRow n e .data .write
      { e with mstate := .dataWait, mN := e.mN + 1, masterTx := (e.masterTx.pop n).2,
               port := { e.port with mdata := e.masterTx.storage.read e.masterTx.tail } }
      [.portRead .mstatus e.port.mstatus, .portWrite .mdata (e.masterTx.storage.read e.masterTx.tail)]
  | sentAndStops (habort : phaseAborted e.port.mstatus = false) (hnack : mRxNack e.port.mstatus = false)
      (hend : e.masterTx.isEmpty = true) (hstop : e.mSendStop = true) :
    EngineRow n e .data .write { e with mstate := .idle, port := { e.port with mcmd := MasterCommand.stop.code } }
      [.portRead .mstatus e.port.mstatus, .portWrite .mcmd MasterCommand.stop.code, .respond (byteResponse e.mN)]
  | sentAndHolds (habort : phaseAborted e.port.mstatus = false) (hnack : mRxNack e.port.mstatus = false)
      (hend : e.masterTx.isEmpty = true) (hstop : e.mSendStop = false) :
    EngineRow n e .data .write { e with mstate := .idle }
      [.portRead .mstatus e.port.mstatus, .respond (byteResponse e.mN)]
  | readFull (habort : phaseAborted e.port.mstatus = false) (hfull : e.masterRx.isFull n = true) :
    EngineRow n e .data .read
      { e with mstate := .idle, mSendStop := true, lastFault := .localBufferFull,
               port := { e.port with mcmd := (readEndCommand true).code } }
      [.portRead .mstatus e.port.mstatus, .portWrite .mcmd (readEndCommand true).code, .respond (byteResponse e.mN)]
  | receives (habort : phaseAborted e.port.mstatus = false) (hroom : e.masterRx.isFull n = false)
      (hmore : e.mN + 1 < e.mCount) :
    EngineRow n e .data .read
      { e with mstate := .dataWait, mN := e.mN + 1, masterRx := (e.masterRx.tryPush n e.port.mdata).2,
               port := { e.port with mcmd := MasterCommand.ackRecv.code } }
      [.portRead .mstatus e.port.mstatus, .portRead .mdata e.port.mdata, .portWrite .mcmd MasterCommand.ackRecv.code]
  | receivesLast (habort : phaseAborted e.port.mstatus = false) (hroom : e.masterRx.isFull n = false)
      (hlast : ¬e.mN + 1 < e.mCount) :
    EngineRow n e .data .read
      { e with mstate := .idle, mN := e.mN + 1, masterRx := (e.masterRx.tryPush n e.port.mdata).2,
               port := { e.port with mcmd := (readEndCommand e.mSendStop).code } }
      [.portRead .mstatus e.port.mstatus, .portRead .mdata e.port.mdata,
       .portWrite .mcmd (readEndCommand e.mSendStop).code, .respond (byteResponse (e.mN + 1))]
  | dataPending {k} (hdone : phaseDone e.port.mstatus = false) :
    EngineRow n e .dataWait k e [.portRead .mstatus e.port.mstatus]
  | dataDone {k} (hdone : phaseDone e.port.mstatus = true) :
    EngineRow n e .dataWait k { e with mstate := .data } [.portRead .mstatus e.port.mstatus]

/-- State `t` is `s` after a step by a row of the table, from the given state and kind. -/
def State.followsRow (s t : State) (m : MState) (k : MKind) : Prop :=
  ∃ e' new, EngineRow s.params.bufN s.eng m k e' new ∧ t.eng = e' ∧ s.observed t new ∧ s.framed t

section
variable {s t : State}

theorem EngineRow.follows {m : MState} {k : MKind} {e' : Engine} {new : List Obs}
    (h : EngineRow s.params.bufN s.eng m k e' new) (he : t.eng = e' := by simp [Port.engineWrite])
    (ht : t.trace = s.trace ++ new.map (fun o => (s.sel, o)) := by simp)
    (hp : t.params = s.params := by simp) (hs : t.sel = s.sel := by simp) (hq : t.schedule = s.schedule := by simp)
    (ho : t.otherEngine = s.otherEngine := by simp) (hd : t.draws = s.draws := by simp) : s.followsRow t m k :=
  ⟨e', new, h, he, ht, State.framed_intro hp hs hq ho hd⟩

theorem State.stepStart_follows (s : State) (k : MKind) :
    s.followsRow ((s.noteRead .mstatus).stepStart s.eng.port.mstatus) .start k := by
  unfold State.stepStart
  split <;> rename_i hbus
  · exact (EngineRow.notReady hbus).follows
  · exact (EngineRow.ready hbus).follows

theorem State.stepWaitBus_follows (s : State) :
    s.followsRow ((s.noteRead .mstatus).stepWaitBus s.eng.port.mstatus) .waitBus s.eng.mKind := by
  unfold State.stepWaitBus
  split <;> rename_i hbus
  · exact (EngineRow.busy hbus).follows
  · exact (EngineRow.address hbus).follows

theorem State.stepAddrWaitWrite_follows (s : State) :
    s.followsRow ((s.noteRead .mstatus).stepAddrWaitWrite s.eng.port.mstatus) .addrWait .write := by
  unfold State.stepAddrWaitWrite
  simp only [Bool.not_eq_true']
  split <;> rename_i hdone
  · exact (EngineRow.addressPending hdone).follows
  · rw [Bool.not_eq_false] at hdone
    split <;> rename_i hlost
    · exact (EngineRow.retry hdone hlost).follows
    · exact (EngineRow.addressedWrite hdone (Bool.not_eq_true _ ▸ hlost)).follows

theorem State.stepAddrWaitRead_follows (s : State) :
    s.followsRow ((s.noteRead .mstatus).stepAddrWaitRead s.eng.port.mstatus) .addrWait .read := by
  unfold State.stepAddrWaitRead
  simp only [Bool.not_eq_true']
  split <;> rename_i hdone
  · exact (EngineRow.addressPending hdone).follows
  · rw [Bool.not_eq_false] at hdone
    split <;> rename_i hnack
    · exact (EngineRow.addressNack hdone hnack).follows
    · rw [Bool.not_eq_true] at hnack
      split <;> rename_i hcount <;> rw [noteRead_eng] at hcount
      · exact (EngineRow.readsNothing hdone hnack hcount).follows
      · exact (EngineRow.addressedRead hdone hnack hcount).follows

theorem State.finishWrite_of_stop (hstop : s.eng.mSendStop = true) :
    s.finishWrite = (s.masterCommand .stop).finish (byteResponse s.eng.mN) := by
  simp [State.finishWrite, hstop]

theorem State.sendNext_follows (s : State) (habort : phaseAborted s.eng.port.mstatus = false)
    (hnack : mRxNack s.eng.port.mstatus = false) : s.followsRow (s.noteRead .mstatus).sendNext .data .write := by
  rcases (s.noteRead .mstatus).pop_cases .masterTx with ⟨hend, e⟩ | ⟨hmore, e⟩ <;>
    simp only [State.buf_masterTx, noteRead_eng] at *
  · rw [(s.noteRead .mstatus).sendNext_of_isEmpty hend, State.finishWrite]
    split <;> rename_i hstop
    · exact (EngineRow.sentAndStops habort hnack hend hstop).follows
    · exact (EngineRow.sentAndHolds habort hnack hend (Bool.eq_false_of_not_eq_true hstop)).follows
  · rw [State.sendNext, e]
    exact (EngineRow.sends habort hnack hmore).follows (by simp [RingBuffer.pop_of_nonempty _ hmore, Port.engineWrite])

theorem State.stepDataWrite_follows (s : State) :
    s.followsRow ((s.noteRead .mstatus).stepDataWrite s.eng.port.mstatus) .data .write := by
  unfold State.stepDataWrite
  split <;> rename_i habort
  · exact (EngineRow.aborted habort).follows
  · rw [Bool.not_eq_true] at habort
    split <;> rename_i hnack
    · have hrow := EngineRow.dataNack (n := s.params.bufN) habort hnack
      dsimp only
      split <;> rename_i hn <;> simp only [forceStop_eng, noteRead_eng] at hn
      · rw [if_pos hn] at hrow
        rw [State.finishWrite_of_stop (by simp)]
        exact hrow.follows
      · rw [if_neg hn] at hrow
        rw [State.finishWrite_of_stop (by simp)]
        exact hrow.follows
    · exact s.sendNext_follows habort (Bool.eq_false_of_not_eq_true hnack)

theorem State.receiveNext_follows (s : State) (habort : phaseAborted s.eng.port.mstatus = false)
    (hroom : s.eng.masterRx.isFull s.params.bufN = false) :
    s.followsRow (s.noteRead .mstatus).receiveNext .data .read := by
  have hpush : (((s.noteRead .mstatus).noteRead .mdata).tryPush .masterRx ((s.noteRead .mstatus).port .mdata)).2 =
      ((s.noteRead .mstatus).noteRead .mdata).setBuf .masterRx
        (s.eng.masterRx.tryPush s.params.bufN s.eng.port.mdata).2 := by
    simp [State.tryPush, RingBuffer.tryPush_of_room _ hroom]
  rw [State.receiveNext_eq, hpush]
  split <;> rename_i hmore <;> simp only [setBuf_eng, noteRead_eng, resolve_masterRx, Engine.setBuffer_masterRx] at hmore
  · exact (EngineRow.receives habort hroom hmore).follows
  · exact (EngineRow.receivesLast habort hroom hmore).follows

theorem State.stepDataRead_follows (s : State) :
    s.followsRow ((s.noteRead .mstatus).stepDataRead s.eng.port.mstatus) .data .read := by
  unfold State.stepDataRead
  simp only [State.buf_masterRx, noteRead_eng, noteRead_params]
  split <;> rename_i habort
  · exact (EngineRow.aborted habort).follows
  · rw [Bool.not_eq_true] at habort
    split <;> rename_i hfull
    · exact (EngineRow.readFull habort hfull).follows
    · exact s.receiveNext_follows habort (Bool.eq_false_of_not_eq_true hfull)

theorem State.stepDataWait_follows (s : State) (k : MKind) :
    s.followsRow ((s.noteRead .mstatus).stepDataWait s.eng.port.mstatus) .dataWait k := by
  unfold State.stepDataWait
  split <;> rename_i hdone
  · exact (EngineRow.dataDone hdone).follows
  · exact (EngineRow.dataPending (Bool.eq_false_of_not_eq_true hdone)).follows

/-- Every Master Engine step is by a row of the table. -/
theorem State.engineStep_follows (s : State) : s.followsRow s.engineStep s.eng.mstate s.eng.mKind := by
  unfold State.engineStep
  split
  next hm => exact hm ▸ EngineRow.rests.follows
  next hm => exact hm ▸ s.stepStart_follows _
  next hm => exact hm ▸ s.stepWaitBus_follows
  next hm hk => exact hm ▸ hk ▸ s.stepAddrWaitWrite_follows
  next hm hk => exact hm ▸ hk ▸ s.stepAddrWaitRead_follows
  next hm hk => exact hm ▸ hk ▸ s.stepDataWrite_follows
  next hm hk => exact hm ▸ hk ▸ s.stepDataRead_follows
  next hm => exact hm ▸ s.stepDataWait_follows _

end

end Sys2Proof.Machine
end

section
/-! PROOFS. The single Master Engine steps (R180 to R195, R200): each statement is read off the rows of the table. -/

namespace Sys2Proof.Machine

/-! ## The tests, bit by bit -/

/-- The sample's test for an unknown bus state (R44, R183). -/
theorem busState_eq_unknown_iff (st : Byte) : busState st = .unknown ↔ st &&& 0x03 = 0x00 := by
  revert st; decide

/-- The sample's test for a busy bus (R44, R183). -/
theorem busState_eq_busy_iff (st : Byte) : busState st = .busy ↔ st &&& 0x03 = 0x03 := by
  revert st; decide

theorem phaseDone_iff (st : Byte) : phaseDone st = true ↔ st.getLsbD 7 = true ∨ st.getLsbD 6 = true := by
  simp [phaseDone, mRif, mWif]

theorem phaseAborted_iff (st : Byte) : phaseAborted st = true ↔ st.getLsbD 3 = true ∨ st.getLsbD 2 = true := by
  simp [phaseAborted, mArbLost, mBusErr]

theorem mRxNack_iff (st : Byte) : mRxNack st = true ↔ st.getLsbD 4 = true := Iff.rfl

theorem readEndCommand_code (stop : Bool) :
    (readEndCommand stop).code = if stop = true then 0x07 else 0x04 := by
  cases stop <;> rfl

/-! ## What every row leaves alone -/

section
variable {s t : State} {n : Nat} {e e' : Engine} {m : MState} {k : MKind} {new : List Obs}

/-- Storage is written by the data step of a read only (R193). -/
theorem EngineRow.storage_eq (h : EngineRow n e m k e' new) (hread : ¬(m = .data ∧ k = .read)) (b : BufName) :
    (e'.buffer b).storage = (e.buffer b).storage := by
  cases h with
  | sends _ _ hmore => cases b <;> simp [Engine.buffer, RingBuffer.pop_of_nonempty _ hmore]
  | readFull | receives | receivesLast => exact absurd ⟨rfl, rfl⟩ hread
  | _ => cases b <;> rfl

theorem State.sameCells_of_storage (hframe : s.framed t)
    (h : ∀ b, (t.eng.buffer b).storage = (s.eng.buffer b).storage) : s.sameCells t := by
  obtain ⟨⟨-, hsel, -, hother⟩, -⟩ := hframe
  exact State.sameCells_intro hsel hother fun b a => by rw [h b]

/-- An engine step that reads no data: its row, and what it leaves alone. -/
theorem State.engineStep_row (s : State) (hread : ¬(s.eng.mstate = .data ∧ s.eng.mKind = .read)) :
    s.framed s.engineStep ∧ s.sameCells s.engineStep ∧ ∃ e' new,
      EngineRow s.params.bufN s.eng s.eng.mstate s.eng.mKind e' new ∧ s.engineStep.eng = e' ∧
      s.observed s.engineStep new := by
  obtain ⟨e', new, hrow, rfl, hobs, hframe⟩ := s.engineStep_follows
  exact ⟨hframe, State.sameCells_of_storage hframe (hrow.storage_eq hread), _, new, hrow, rfl, hobs⟩

end

/-! ## The statements -/

/-- Settles O37: M_START and M_WAIT_BUS have two rows each. -/
theorem startAndWaitBusSteps : Obligations.StartAndWaitBusSteps := by
  unfold Obligations.StartAndWaitBusSteps
  simp only [← busState_eq_unknown_iff, ← busState_eq_busy_iff]
  refine fun s => ⟨fun hm => ?_, fun hm => ?_⟩
  · obtain ⟨hframe, hcells, e', new, hrow, heng, hobs⟩ := s.engineStep_row (by simp [hm])
    rw [hm] at hrow
    refine ⟨hframe, hcells, ?_⟩
    cases hrow with
    | notReady hbus => rw [if_pos hbus]; exact ⟨heng, hobs⟩
    | ready hbus => rw [if_neg hbus]; exact ⟨heng, hobs⟩
  · obtain ⟨hframe, hcells, e', new, hrow, heng, hobs⟩ := s.engineStep_row (by simp [hm])
    rw [hm] at hrow
    refine ⟨hframe, hcells, ?_⟩
    cases hrow with
    | busy hbus => rw [if_pos hbus]; exact ⟨heng, hobs⟩
    | address hbus =>
      rw [if_neg hbus]
      cases hk : s.eng.mKind <;> rw [hk] at heng hobs <;> exact ⟨heng, hobs⟩

/-- Settles O38: the rows of a write's address wait and of the data wait. -/
theorem writeAddressWaitAndDataWaitSteps : Obligations.WriteAddressWaitAndDataWaitSteps := by
  unfold Obligations.WriteAddressWaitAndDataWaitSteps
  simp only [← phaseDone_iff]
  refine fun s => ⟨fun hm hk => ?_, fun hm => ?_⟩
  · obtain ⟨hframe, hcells, e', new, hrow, heng, hobs⟩ := s.engineStep_row (by simp [hm])
    rw [hm, hk] at hrow
    cases hrow with
    | addressPending hdone => exact ⟨hframe, hcells, hobs, by simp [heng], by simp [hdone], by simp [hdone]⟩
    | retry hdone hlost => exact ⟨hframe, hcells, hobs, by simp [hdone], fun _ _ => heng, by simp_all [mArbLost]⟩
    | addressedWrite hdone hlost =>
      exact ⟨hframe, hcells, hobs, by simp [hdone], by simp_all [mArbLost], fun _ _ => heng⟩
  · obtain ⟨hframe, hcells, e', new, hrow, heng, hobs⟩ := s.engineStep_row (by simp [hm])
    rw [hm] at hrow
    cases hrow with
    | dataPending hdone => exact ⟨hframe, hcells, hobs, by simp [hdone], fun _ => heng⟩
    | dataDone hdone => exact ⟨hframe, hcells, hobs, fun _ => heng, by simp [hdone]⟩

/-- Settles O39: the five rows of a write's data step, in the order of their tests. -/
theorem writeDataStep : Obligations.WriteDataStep := by
  unfold Obligations.WriteDataStep
  simp only [← phaseAborted_iff, ← mRxNack_iff]
  intro s hm hk
  obtain ⟨hframe, hcells, e', new, hrow, heng, hobs⟩ := s.engineStep_row (by simp [hk])
  rw [hm, hk] at hrow
  refine ⟨hframe, hcells, ?_⟩
  cases hrow with
  | aborted habort => rw [if_pos habort]; exact ⟨heng, hobs⟩
  | dataNack habort hnack => rw [if_neg (by simp [habort]), if_pos hnack]; exact ⟨heng, hobs⟩
  | sends habort hnack hmore =>
    rw [RingBuffer.pop_of_nonempty _ hmore] at heng
    rw [if_neg (by simp [habort]), if_neg (ne_true_of_eq_false hnack),
      if_pos (by simpa [RingBuffer.isEmpty] using hmore)]
    exact ⟨heng, hobs⟩
  | sentAndStops habort hnack hend hstop =>
    rw [if_neg (by simp [habort]), if_neg (ne_true_of_eq_false hnack),
      if_neg (by simpa [RingBuffer.isEmpty] using hend), if_pos hstop]
    exact ⟨heng, hobs⟩
  | sentAndHolds habort hnack hend hstop =>
    rw [if_neg (by simp [habort]), if_neg (ne_true_of_eq_false hnack),
      if_neg (by simpa [RingBuffer.isEmpty] using hend), if_neg (by simp [hstop])]
    exact ⟨heng, hobs⟩

/-- Settles O40: the four rows of a read's address wait, in the order of their tests. -/
theorem readAddressWaitStep : Obligations.ReadAddressWaitStep := by
  unfold Obligations.ReadAddressWaitStep
  simp only [← phaseDone_iff, ← mRxNack_iff, ← readEndCommand_code]
  intro s hm hk
  obtain ⟨hframe, hcells, e', new, hrow, heng, hobs⟩ := s.engineStep_row (by simp [hm])
  rw [hm, hk] at hrow
  refine ⟨hframe, hcells, ?_⟩
  cases hrow with
  | addressPending hdone => rw [if_pos (by simp [hdone])]; exact ⟨heng, hobs⟩
  | addressNack hdone hnack => rw [if_neg (by simp [hdone]), if_pos hnack]; exact ⟨heng, hobs⟩
  | readsNothing hdone hnack hzero =>
    rw [if_neg (by simp [hdone]), if_neg (ne_true_of_eq_false hnack), if_pos hzero]; exact ⟨heng, hobs⟩
  | addressedRead hdone hnack hcount =>
    rw [if_neg (by simp [hdone]), if_neg (ne_true_of_eq_false hnack), if_neg hcount]; exact ⟨heng, hobs⟩

end Sys2Proof.Machine
end

section
/-! PROOFS. The data step of a read (R192 to R195), and what no Master Engine step touches (R180, R181). -/

namespace Sys2Proof.Machine

section
variable {s t : State} {n : Nat} {e e' : Engine} {m : MState} {k : MKind} {new : List Obs}

/-! ## The data step of a read -/

theorem RingBuffer.isFull_eq_true_iff (n : Nat) (rb : RingBuffer) :
    rb.isFull n = true ↔ (rb.head + 1) % n = rb.tail := by
  simp [RingBuffer.isFull, adv]

/-- A byte stored in `master_rx` (R144): its cell and the head are the only storage and index that change. -/
theorem State.stores_masterRx {b : Byte} (hframe : s.framed t) (hwf : s.eng.masterRx.wf s.params.bufN = true)
    (hroom : s.eng.masterRx.isFull s.params.bufN = false)
    (hrx : t.eng.masterRx = (s.eng.masterRx.tryPush s.params.bufN b).2)
    (htx : t.eng.masterTx = s.eng.masterTx) (httx : t.eng.targetTx = s.eng.targetTx)
    (htrx : t.eng.targetRx = s.eng.targetRx) :
    t.eng.masterRx.head = (s.eng.masterRx.head + 1) % s.params.bufN ∧ t.eng.masterRx.tail = s.eng.masterRx.tail ∧
      t.eng.masterRx.storage.read s.eng.masterRx.head = b ∧ s.sameCellsBut t .masterRx s.eng.masterRx.head := by
  obtain ⟨⟨-, hsel, -, hother⟩, -⟩ := hframe
  obtain ⟨-, -, hstorage⟩ := (RingBuffer.wf_iff _ _).mp hwf
  rw [RingBuffer.tryPush_of_room b hroom] at hrx
  rw [hrx]
  refine ⟨rfl, rfl, Memory.read_write_same _ _ _ _ hstorage, State.sameCellsBut_intro hsel hother fun c a hc => ?_⟩
  cases c with
  | masterRx =>
    have ha : a ≠ s.eng.masterRx.head := fun ha => hc ⟨rfl, ha⟩
    simpa [Engine.buffer, hrx] using Memory.read_write_other _ _ _ _ b hstorage ha
  | masterTx | targetTx | targetRx => simp [Engine.buffer, htx, httx, htrx]

/-- Settles O41: the four rows of a read's data step, in the order of their tests. -/
theorem readDataStep : Obligations.ReadDataStep := by
  unfold Obligations.ReadDataStep
  simp only [← phaseAborted_iff, ← RingBuffer.isFull_eq_true_iff, ← readEndCommand_code]
  intro s hinv hm hk
  obtain ⟨e', new, hrow, heng, hobs, hframe⟩ := s.engineStep_follows
  rw [hm, hk] at hrow
  obtain ⟨-, -, hall⟩ := hinv
  have hwf : s.eng.masterRx.wf s.params.bufN = true := Engine.buffer_wf .masterRx (hall s.sel)
  refine ⟨hframe, ?_⟩
  cases hrow with
  | aborted habort =>
    rw [if_pos habort]
    exact ⟨heng, hobs, State.sameCells_of_storage hframe fun b => by rw [heng]; cases b <;> rfl⟩
  | readFull habort hfull =>
    rw [if_neg (by simp [habort]), if_pos hfull]
    exact ⟨heng, hobs, State.sameCells_of_storage hframe fun b => by rw [heng]; cases b <;> rfl⟩
  | receives habort hroom hmore =>
    obtain ⟨hhead, htail, hcell, hcells⟩ := State.stores_masterRx hframe hwf hroom (b := s.eng.port.mdata)
      (by rw [heng]) (by rw [heng]) (by rw [heng]) (by rw [heng])
    rw [if_neg (by simp [habort]), if_neg (by simp [hroom])]
    simp only [if_pos hmore]
    exact ⟨by rw [heng]; rfl, hhead, htail, hcell, hcells, hobs⟩
  | receivesLast habort hroom hlast =>
    obtain ⟨hhead, htail, hcell, hcells⟩ := State.stores_masterRx hframe hwf hroom (b := s.eng.port.mdata)
      (by rw [heng]) (by rw [heng]) (by rw [heng]) (by rw [heng])
    rw [if_neg (by simp [habort]), if_neg (by simp [hroom])]
    simp only [if_neg hlast]
    exact ⟨by rw [heng], hhead, htail, hcell, hcells, hobs⟩

/-! ## What no engine step touches -/

/-- The master registers and buffers, and the three port registers the engine writes, are all that a row changes
(R180). -/
theorem EngineRow.eq_update (h : EngineRow n e m k e' new) : e' =
    { e with mstate := e'.mstate, mN := e'.mN, mSendStop := e'.mSendStop, lastFault := e'.lastFault,
             masterTx := e'.masterTx, masterRx := e'.masterRx,
             port := { e.port with maddr := e'.port.maddr, mdata := e'.port.mdata, mcmd := e'.port.mcmd } } := by
  cases h <;> rfl

theorem EngineRow.masterRx_eq_of_write (h : EngineRow n e m .write e' new) : e'.masterRx = e.masterRx := by
  cases h <;> rfl

theorem EngineRow.masterTx_eq_of_read (h : EngineRow n e m .read e' new) : e'.masterTx = e.masterTx := by
  cases h <;> rfl

/-- A row notifies no one and samples MSTATUS once, but for M_IDLE (R180, R181). -/
theorem EngineRow.samples_once (h : EngineRow n e m k e' new) : new.all (fun o => !o.isNotification) = true ∧
    (new.filter (fun o => o == .portRead .mstatus e.port.mstatus)).length = if m = .idle then 0 else 1 := by
  cases h <;> simp [Obs.isNotification]

/-- Settles O53: the engine after a row differs from the one before in the named fields only. -/
theorem masterEngineNeverTouchesTargetSide : Obligations.MasterEngineNeverTouchesTargetSide := by
  unfold Obligations.MasterEngineNeverTouchesTargetSide
  intro s
  obtain ⟨e', new, hrow, heng, hobs, -⟩ := s.engineStep_follows
  obtain ⟨hnotify, hsample⟩ := hrow.samples_once
  have hupdate := heng.trans hrow.eq_update
  have hrx : s.eng.mKind = .write → s.engineStep.eng.masterRx = s.eng.masterRx := fun hk =>
    heng ▸ EngineRow.masterRx_eq_of_write (hk ▸ hrow)
  have htx : s.eng.mKind = .read → s.engineStep.eng.masterTx = s.eng.masterTx := fun hk =>
    heng ▸ EngineRow.masterTx_eq_of_read (hk ▸ hrow)
  refine ⟨?_, ?_, ?_, ?_, ?_, ?_, ?_, ?_, ?_, ?_, ?_, ?_, hrx, htx, ?_, new, hobs, hnotify, hsample⟩ <;> rw [hupdate]
  simp [Port.get]

end

end Sys2Proof.Machine
end

section
/-! PROOFS. The transition table of `mstate` (R200): the rows of an engine step, and that of the instructions only END
and REQUEST move it, to M_START. -/

namespace Sys2Proof.Machine

/-! ## The table -/

section
variable {s t u : State} {n : Nat} {e e' : Engine} {m : MState} {k : MKind} {new : List Obs}

/-- The rows that end in M_IDLE respond, once; the others do not (R200). -/
theorem EngineRow.responds_once (h : EngineRow n e m k e' new) (hm : e.mstate = m) :
    (new.filter Obs.isResponse).length = if m ≠ .idle ∧ e'.mstate = .idle then 1 else 0 := by
  cases h <;> simp [List.filter, Obs.isResponse, hm]

end

/-! ## Transaction registers -/

/-- The transaction registers of an instance (R30). -/
@[simp] def Engine.transaction (e : Engine) : MState × MKind × Bool × Byte × Byte :=
  (e.mstate, e.mKind, e.mSendStop, e.mCount, e.mN)

/-- The selected instance's transaction registers are as they were. -/
@[simp] def State.sameTransaction (s t : State) : Prop := t.eng.transaction = s.eng.transaction

section
variable {s t u : State}

theorem State.sameTransaction.fields (h : s.sameTransaction t) : t.eng.mstate = s.eng.mstate ∧
    t.eng.mKind = s.eng.mKind ∧ t.eng.mSendStop = s.eng.mSendStop ∧ t.eng.mCount = s.eng.mCount ∧
    t.eng.mN = s.eng.mN := by
  simpa using h

theorem State.sameTransaction.mstate (h : s.sameTransaction t) : t.eng.mstate = s.eng.mstate := congrArg Prod.fst h

theorem State.sameTransaction.trans (h : s.sameTransaction t) (h' : t.sameTransaction u) : s.sameTransaction u :=
  Eq.trans h' h

theorem State.sameTransaction.emit {o : Obs} (h : s.sameTransaction t) : s.sameTransaction (t.emit o) := h

theorem State.sameTransaction.targetCommand (c : TargetCommand) (h : s.sameTransaction t) :
    s.sameTransaction (t.targetCommand c) :=
  h.trans (by simp)

theorem State.sameTransaction.requestPhase (h : s.sameTransaction t) : s.sameTransaction t.requestPhase :=
  State.requestPhase_elim (fun _ => h.trans (by simp)) (h.trans (by simp))

theorem State.tryPush_sameTransaction (s : State) (b : BufName) (v : Byte) : s.sameTransaction (s.tryPush b v).2 :=
  State.tryPush_elim (by simp) (by simp)

theorem State.pop_sameTransaction (s : State) (b : BufName) : s.sameTransaction (s.pop b).2 :=
  State.pop_elim rfl (by simp)

theorem State.setBaud_sameTransaction (s : State) (f : Hertz) : s.sameTransaction (s.setBaud f) := by
  obtain ⟨_, e⟩ | ⟨_, _, e⟩ | ⟨_, _, e⟩ := s.setBaud_cases f <;> simp [e]

/-- END and REQUEST. -/
def startsTransaction : Instr → Bool
  | .endTransmission _ | .request _ _ _ => true
  | _ => false

/-- No instruction but END and REQUEST writes a transaction register. -/
theorem exec_sameTransaction {i : Instr} (hi : startsTransaction i = false) (he : exec i s = .next t) :
    s.sameTransaction t := by
  have hrefuse : s.sameTransaction (s.refuse .wrongContext) := by simp
  cases i with
  | endTransmission | request => cases hi
  | beginTransmission | disableMaster | disableTarget | onReceive | onRequest | swapPins | pullups =>
    cases he; exact State.inForeground_elim hrefuse fun _ => by simp
  | enableMaster | enableTarget | calcBaud =>
    cases he; exact State.inForeground_elim hrefuse fun _ => keeps_ite (by simp) (by simp)
  | flush =>
    cases he
    exact State.inForeground_elim hrefuse fun _ => .emit (keeps_ite (by simp [State.cycle]) (by simp [State.cycle]))
  | setClock f => cases he; exact State.inForeground_elim hrefuse fun _ => s.setBaud_sameTransaction f
  | write b => cases he; exact (s.tryPush_sameTransaction _ b).emit
  | read => cases he; exact (s.pop_sameTransaction _).emit
  | selectPins => cases he; exact State.inForeground_elim hrefuse fun _ => rfl
  | getIncoming => cases he; exact keeps_ite rfl rfl
  | cbReturn =>
    exact exec_cbReturn_elim (fun _ => hrefuse) (fun _ => by simp) (fun _ => .requestPhase (by simp))
      (fun _ => by simp) he
  | tStop => cases he; exact State.deliverRx_elim (fun _ _ => by simp) (by simp)
  | tAddrR => cases he; exact State.deliverRx_elim (fun _ _ => by simp) (.requestPhase (by simp))
  | tDataRx =>
    cases he
    have hpush := (s.noteRead .sdata).tryPush_sameTransaction .targetRx (s.port .sdata)
    exact keeps_ite (by simp) ((State.sameTransaction.trans (by simp) hpush).targetCommand _)
  | tDataReq =>
    have hpop := State.pop_sameTransaction (s.setEng { s.eng with ackMatters := true }) .targetTx
    simp only [exec, execTDataReq] at he
    split at he <;> rename_i hp <;> rw [hp] at hpop <;> cases he <;>
      exact .trans (.trans (by simp) hpop) (by simp)
  | available | peek | tBuserr | tAddrW | tNack | tIllegal | mRepstart | mAckRecv | mStop | mNackHold | mNackStop
  | tWaitStart | tAckResponse | tNackWaitStart => cases he; simp

theorem startsTransaction_iff (i : Instr) : startsTransaction i = true ↔
    (∃ stop, i = .endTransmission stop) ∨ ∃ a c stop, i = .request a c stop := by
  cases i <;> simp [startsTransaction]

/-- END and REQUEST are refused in a callback; in foreground context they start a transaction, a read with `master_rx`
emptied (R263, R265). -/
theorem exec_startsTransaction_cases {i : Instr} (hi : startsTransaction i = true) (he : exec i s = .next t) :
    (s.eng.cbState ≠ .none ∧ t = s.refuse .wrongContext) ∨
    (s.eng.cbState = .none ∧ t.eng.mstate = .start ∧ t.eng.mN = 0 ∧
      (t.eng.mKind = .read → t.eng.masterRx.available s.params.bufN = 0)) := by
  obtain ⟨stop, rfl⟩ | ⟨a, c, stop, rfl⟩ := (startsTransaction_iff i).mp hi <;> cases he <;>
    by_cases hcb : s.eng.cbState = .none
  · exact .inr ⟨hcb, by simp [s.inForeground_run _ hcb]⟩
  · exact .inl ⟨hcb, s.inForeground_refuse _ hcb⟩
  · exact .inr ⟨hcb, by simp [s.inForeground_run _ hcb]⟩
  · exact .inl ⟨hcb, s.inForeground_refuse _ hcb⟩

/-! ## Steps -/

/-- Every operation leaves the parameters, the selection, the schedule and the other instance as they are. -/
theorem sameOutside_kept (s : State) : KeptBySession s.sameOutside where
  emit _ h := h
  draw _ h := h
  raise _ h := by simpa [State.sameOutside] using h
  transaction _ _ _ _ _ h := by simpa [State.sameOutside] using h
  txnAddress _ h := by simpa [State.sameOutside] using h
  incoming _ h := by simpa [State.sameOutside] using h
  writeData _ _ _ h := by simpa [State.sameOutside] using h
  masterCommand _ h := by simpa [State.sameOutside] using h
  targetCommand _ h := by simpa [State.sameOutside] using h
  periphStep _ h := by simpa [State.sameOutside] using h
  setBuf _ _ _ h := by simpa [State.sameOutside] using h
  session _ _ _ _ _ _ h := by simpa [State.sameOutside] using h
  writePort _ _ h := by simpa [State.sameOutside] using h

theorem State.sameOutside.refl (s : State) : s.sameOutside s := ⟨rfl, rfl, rfl, rfl⟩

theorem State.sameOutside.params (h : s.sameOutside t) : t.params = s.params := h.1

theorem State.sameOutside.sel (h : s.sameOutside t) : t.sel = s.sel := h.2.1

theorem State.sameOutside.trans (h : s.sameOutside t) (h' : t.sameOutside u) : s.sameOutside u := by
  obtain ⟨hp, hs, hq, ho⟩ := h
  obtain ⟨hp', hs', hq', ho'⟩ := h'
  exact ⟨hp'.trans hp, hs'.trans hs, hq'.trans hq, ho'.trans ho⟩

theorem exec_sameOutside {i : Instr} (he : exec i s = .next t) : s.sameOutside t :=
  (sameOutside_kept s).keeps_exec (.refl s) (fun _ _ => by simp [State.sameOutside])
    (fun _ _ => by simp [State.sameOutside]) he

theorem State.engineStep_sameOutside (s : State) : s.sameOutside s.engineStep :=
  (sameOutside_kept s).engineStep (.refl s)

theorem State.sameOutside.engineOf_eq (h : s.sameOutside t) {i : InstId} (hi : i ≠ s.sel) :
    t.engineOf i = s.engineOf i := by
  obtain ⟨-, hsel, -, hother⟩ := h
  rw [t.engineOf_cases, s.engineOf_cases, hsel, if_neg hi, if_neg hi, hother]

@[simp] theorem taking_engineOf (s : State) (i j : InstId) (rest : List Stimulus) :
    (s.taking i rest).engineOf j = s.engineOf j := by
  cases j <;> rfl

@[simp] theorem taking_eng (s : State) (i : InstId) (rest : List Stimulus) : (s.taking i rest).eng = s.engineOf i :=
  taking_engineOf s i i rest

/-- An offer handled by instance `j` moves no other `mstate`, and that of `j` only if the handling moves it. -/
theorem State.mstate_eq_of_taking {i j : InstId} {rest : List Stimulus} (h : (s.taking j rest).sameOutside t)
    (hj : (s.taking j rest).sameTransaction t ∨ i ≠ j) : (t.engineOf i).mstate = (s.engineOf i).mstate := by
  by_cases hij : i = j
  · have hsame := hj.resolve_right fun hne => hne hij
    have hsel : t.sel = i := hij ▸ h.sel
    subst hij
    calc (t.engineOf i).mstate = t.eng.mstate := by rw [← engineOf_sel, hsel]
      _ = (s.taking i rest).eng.mstate := hsame.mstate
      _ = (s.engineOf i).mstate := by rw [taking_eng]
  · rw [h.engineOf_eq hij, taking_engineOf]

/-- With the foreground idle no existing instance has a command in progress (R78, R318). -/
theorem State.mstate_eq_idle_of_foregroundIdle {i : InstId} (hidle : s.foregroundIdle = true)
    (hi : s.hasInst i = true) : (s.engineOf i).mstate = .idle := by
  simp only [State.foregroundIdle, Bool.and_eq_true, beq_iff_eq, Bool.or_eq_true, Bool.not_eq_true'] at hidle
  cases i with
  | i0 => exact hidle.1
  | i1 => exact hidle.2.resolve_left fun h => by simp [hi] at h

theorem State.foregroundIdle_of_admits {i : InstId} {w : CommandWord} (hadm : s.admits (.command i w) = true)
    (hcb : (s.engineOf i).cbState = .none) : s.foregroundIdle = true := by
  simp only [State.admits, hcb, bne_self_eq_false, Bool.false_or, Bool.and_eq_true] at hadm
  exact hadm.2.2

theorem State.mstate_eq_idle_of_admits {i : InstId} {w : CommandWord} (hadm : s.admits (.command i w) = true)
    (hcb : (s.engineOf i).cbState = .none) : (s.engineOf i).mstate = .idle :=
  State.mstate_eq_idle_of_foregroundIdle (State.foregroundIdle_of_admits hadm hcb) (hasInst_of_admits hadm)

theorem decode_of_decodeCommand {w : CommandWord} {i : Instr} (h : decodeCommand w = .ok i) :
    decode (.command w) = some i := by
  simp only [decode, h]

theorem startsTransaction_of_isBranch {i : Instr} (h : isBranch i = true) : startsTransaction i = false := by
  cases i with
  | endTransmission | request => cases h
  | _ => rfl

/-- A step moves an `mstate` as an engine step of that instance, or as END or REQUEST, from M_IDLE to M_START. -/
theorem step_moves_mstate {i : InstId} (hstep : step s = .next t)
    (hne : (t.engineOf i).mstate ≠ (s.engineOf i).mstate) :
    (∃ rest, s.schedule = .engine i :: rest ∧ s.admits (.engine i) = true ∧ t = (s.taking i rest).engineStep) ∨
    ∃ w ins rest, s.schedule = .command i w :: rest ∧ s.admits (.command i w) = true ∧
      decodeCommand w = .ok ins ∧ startsTransaction ins = true ∧ (s.engineOf i).mstate = .idle ∧
      (t.engineOf i).mstate = .start := by
  have hrun : ∀ {j rest}, (s.taking j rest).sameOutside t → i = j ∧ ¬(s.taking j rest).sameTransaction t :=
    fun hout => by
      have hj := mt (State.mstate_eq_of_taking (i := i) hout) hne
      rw [not_or, not_not] at hj
      exact hj.symm
  cases step_cases hstep with
  | waits hsched ht => exact absurd (by rw [ht]) hne
  | drops x rest hsched hadm ht => exact absurd (by rw [ht]; cases i <;> rfl) hne
  | refuses j w r rest hsched hadm hdec ht =>
    subst ht
    exact absurd (by simp) (hrun ((sameOutside_kept _).refuse r (.refl _))).2
  | command j w ins rest hsched hadm hdec hexec =>
    obtain ⟨rfl, hmoved⟩ := hrun (exec_sameOutside hexec)
    have hstarts : startsTransaction ins = true := by
      by_contra hno
      exact hmoved (exec_sameTransaction (Bool.eq_false_of_not_eq_true hno) hexec)
    rcases exec_startsTransaction_cases hstarts hexec with ⟨-, rfl⟩ | ⟨hcb, hstart, -⟩
    · exact absurd (by simp) hmoved
    · have hsel : t.sel = i := (exec_sameOutside hexec).sel
      rw [taking_eng] at hcb
      refine .inr ⟨w, ins, rest, hsched, hadm, hdec, hstarts, State.mstate_eq_idle_of_admits hadm hcb, ?_⟩
      rw [← hsel]
      exact hstart
  | engine j rest hsched hadm ht =>
    obtain ⟨rfl, -⟩ := hrun (ht ▸ State.engineStep_sameOutside _)
    exact .inl ⟨rest, hsched, hadm, ht⟩
  | event j rest hsched hadm hexec =>
    have hquiet := startsTransaction_of_isBranch (isBranch_decodeKey (s.taking j rest).dispatchKey)
    have hsame : (s.taking j rest).sameTransaction t :=
      .trans (t := (s.taking j rest).enterEvent) (by simp [State.enterEvent]) (exec_sameTransaction hquiet hexec)
    have hout := State.sameOutside.trans ((sameOutside_kept _).noteRead .sstatus (.refl _)) (exec_sameOutside hexec)
    exact absurd hsame (hrun hout).2
  | periph j ws rest hsched hadm ht =>
    subst ht
    exact absurd (by simp) (hrun ((sameOutside_kept _).periphStep ws (.refl _))).2

theorem step_startsTransaction {i : InstId} {w : CommandWord} {rest : List Stimulus} {ins : Instr}
    (hsched : s.schedule = .command i w :: rest) (hadm : s.admits (.command i w) = true)
    (hcb : (s.engineOf i).cbState = .none) (hdec : decodeCommand w = .ok ins) (hstarts : startsTransaction ins = true) :
    ∃ t, step s = .next t ∧ (t.engineOf i).mstate = .start := by
  have hrun : (s.taking i rest).eng.cbState = .none := (taking_eng ..).symm ▸ hcb
  obtain ⟨t, he⟩ : ∃ t, exec ins (s.taking i rest) = .next t := by
    obtain ⟨stop, rfl⟩ | ⟨a, c, stop, rfl⟩ := (startsTransaction_iff ins).mp hstarts <;> exact ⟨_, rfl⟩
  refine ⟨t, (step_of_command hsched hadm hdec).trans he, ?_⟩
  have hsel : t.sel = i := (exec_sameOutside he).sel
  obtain ⟨hno, -⟩ | ⟨-, hstart, -⟩ := exec_startsTransaction_cases hstarts he
  · exact absurd hrun hno
  · rw [← hsel]
    exact hstart

end

/-- Settles O42: the rows of the table, the one kind of instruction that writes `mstate`, and the rule that admits it
only with the foreground idle. -/
theorem engineTransitionTable : Obligations.EngineTransitionTable := by
  unfold Obligations.EngineTransitionTable
  refine ⟨fun s => ?table, fun i s t he hne => ?exec, fun s a c stop hcb => ?starts, fun s t i hstep hne => ?step,
    fun s i w rest ins hsched hadm hcb hdec hstarts => ?command⟩
  case table =>
    obtain ⟨e', new, hrow, heng, hobs, -⟩ := s.engineStep_follows
    dsimp only
    rw [heng]
    refine ⟨?_, new, hobs, hrow.responds_once rfl⟩
    generalize hm : s.eng.mstate = m at hrow
    generalize hk : s.eng.mKind = k at hrow
    cases hrow with
    | addressedRead hdone hnack hcount => simpa [hm, hk, hdone, hnack] using hcount
    | receives habort hroom hmore => simpa [hm, hk, habort, hroom] using hmore
    | receivesLast habort hroom hlast => simpa [hm, hk, habort, hroom] using hlast
    | _ => simp [*]
  case exec =>
    have hmoves : startsTransaction i = true := by
      by_contra hno
      exact hne (exec_sameTransaction (Bool.eq_false_of_not_eq_true hno) he).mstate
    refine ⟨?_, (startsTransaction_iff i).mp hmoves⟩
    rcases exec_startsTransaction_cases hmoves he with ⟨-, rfl⟩ | ⟨-, hstart, -⟩
    · exact absurd (by simp) hne
    · exact hstart
  case starts =>
    refine ⟨⟨_, rfl, ?_⟩, ⟨_, rfl, ?_⟩⟩ <;> simp [s.inForeground_run _ hcb]
  case step =>
    refine (step_moves_mstate hstep hne).imp_right fun ⟨w, ins, rest, hsched, hadm, hdec, hstarts, hfrom, hto⟩ => ?_
    have hkind := (startsTransaction_iff ins).mp hstarts
    exact ⟨w, ins, rest, hsched, hadm, decode_of_decodeCommand hdec, hkind, hfrom, hto⟩
  case command =>
    exact ⟨State.mstate_eq_idle_of_admits hadm hcb, step_startsTransaction hsched hadm hcb
      (decodeCommand_of_decode hdec) ((startsTransaction_iff ins).mpr hstarts)⟩

end Sys2Proof.Machine
end

section
/-! PROOFS. Every step keeps the transaction invariant (R78, R186, R189, R192, R318): engine steps count what they move,
and every other step leaves a transaction in progress alone or starts one with the foreground idle. -/

namespace Sys2Proof.Machine

section
variable {p : Params} {e e' : Engine} {new : List Obs}

/-! ## The transaction of one engine -/

theorem Engine.transactionWf_of_idle (h : e.mstate = .idle) : e.transactionWf p := by
  simp [Engine.transactionWf, h]

/-- A transaction starts with nothing counted, a read with nothing stored (R263, R265). -/
theorem Engine.transactionWf_of_start (hstart : e.mstate = .start) (hn : e.mN = 0)
    (hrx : e.mKind = .read → e.masterRx.available p.bufN = 0) (htx : e.masterTx.wf p.bufN = true) :
    e.transactionWf p := by
  have hlt := RingBuffer.available_lt htx
  refine ⟨by simp [hstart], fun _ _ hk => by simp [hn, hrx hk], fun _ _ _ => ?_, fun _ => hn⟩
  have hzero : e.mN.toNat = 0 := by simp [hn]
  omega

/-- A transaction in progress whose kind and counts are kept: what is left is the condition of the state it is in. -/
theorem Engine.transactionWf.moved (h : e.transactionWf p) (hactive : e'.mstate ≠ .idle → e.mstate ≠ .idle)
    (hkind : e'.mKind = e.mKind) (hn : e'.mN = e.mN)
    (hrx : p.simultaneous = true → e'.masterRx = e.masterRx) (htx : p.simultaneous = true → e'.masterTx = e.masterTx)
    (hdata : (e'.mstate = .data ∨ e'.mstate = .dataWait) ∧ e'.mKind = .read → e'.mN < e'.mCount)
    (hwait : e'.mstate = .start ∨ e'.mstate = .waitBus ∨ e'.mstate = .addrWait → e'.mN = 0) :
    e'.transactionWf p := by
  obtain ⟨-, hread, hwrite, -⟩ := h
  refine ⟨hdata, fun hsim hne hk => ?_, fun hsim hne hk => ?_, hwait⟩
  · rw [hrx hsim, hn]
    exact hread hsim (hactive hne) (hkind ▸ hk)
  · rw [htx hsim, hn]
    exact hwrite hsim (hactive hne) (hkind ▸ hk)

theorem Engine.transactionWf.mN_eq_zero (h : e.transactionWf p)
    (hm : e.mstate = .start ∨ e.mstate = .waitBus ∨ e.mstate = .addrWait) : e.mN = 0 := by
  obtain ⟨-, -, -, hwait⟩ := h
  exact hwait hm

/-- Below another byte the successor does not wrap. -/
theorem toNat_add_one_of_lt {b c : Byte} (h : b < c) : (b + 1).toNat = b.toNat + 1 := by
  bv_omega

/-- A buffer is at most 256 bytes long (R6). -/
theorem Params.bufN_le (hp : p.wf = true) : p.bufN ≤ 256 := by
  simp only [Params.wf, Bool.and_eq_true, decide_eq_true_eq] at hp
  omega

/-- One byte of `master_tx` sent and counted: the sum of what was sent and what is staged is kept (R186). -/
theorem Engine.transactionWf.sends (h : e.transactionWf p) (hp : p.wf = true) (htx : e.masterTx.wf p.bufN = true)
    (hm : e.mstate = .data) (hk : e.mKind = .write) (hmore : e.masterTx.isEmpty = false) (port : Port) :
    { e with mstate := .dataWait, mN := e.mN + 1, masterTx := (e.masterTx.pop p.bufN).2, port := port }.transactionWf
      p := by
  obtain ⟨-, -, hwrite, -⟩ := h
  refine ⟨by simp [hk], by simp [hk], fun hsim _ _ => ?_, by simp⟩
  have hsum := hwrite hsim (by simp [hm]) hk
  have hpop := RingBuffer.available_pop htx
  simp only [RingBuffer.pop_of_nonempty _ hmore, Option.isSome_some, if_true] at hpop ⊢
  have hbound := Params.bufN_le hp
  rw [BitVec.toNat_add_of_lt (by simp; omega)]
  simp
  omega

/-- One byte stored in `master_rx` and counted (R193). -/
theorem Engine.transactionWf.receives (h : e.transactionWf p) (hrx : e.masterRx.wf p.bufN = true)
    (hm : e.mstate = .data) (hk : e.mKind = .read) (hroom : e.masterRx.isFull p.bufN = false)
    (hmore : e.mN + 1 < e.mCount) (port : Port) :
    { e with mstate := .dataWait, mN := e.mN + 1, masterRx := (e.masterRx.tryPush p.bufN e.port.mdata).2,
             port := port }.transactionWf p := by
  obtain ⟨hcount, hread, -, -⟩ := h
  refine ⟨fun _ => hmore, fun hsim _ _ => ?_, by simp [hk], by simp⟩
  have hpush := RingBuffer.available_tryPush hrx e.port.mdata
  rw [RingBuffer.tryPush_of_room _ hroom] at hpush ⊢
  rw [hpush, hread hsim (by simp [hm]) hk, toNat_add_one_of_lt (hcount ⟨.inl hm, hk⟩)]
  rfl

/-- Every row keeps the transaction consistent. -/
theorem EngineRow.transactionWf (h : EngineRow p.bufN e e.mstate e.mKind e' new) (hp : p.wf = true)
    (hs : e.storageWf p) (hwf : e.transactionWf p) : e'.transactionWf p := by
  obtain ⟨htx, hrx, -⟩ := hs
  generalize hm : e.mstate = m at h
  generalize hk : e.mKind = k at h
  cases h with
  | rests | busy | addressPending | dataPending => exact hwf
  | ready | address | retry =>
    have hn := hwf.mN_eq_zero (by simp [hm])
    exact hwf.moved (by simp [hm]) rfl rfl (fun _ => rfl) (fun _ => rfl) (by simp) fun _ => hn
  | addressedWrite =>
    exact hwf.moved (by simp [hm]) rfl (hwf.mN_eq_zero (by simp [hm])).symm (fun _ => rfl) (fun _ => rfl) (by simp [hk])
      (by simp)
  | addressedRead hdone hnack hcount =>
    have hpos : 0 < e.mCount := by bv_omega
    exact hwf.moved (by simp [hm]) rfl (hwf.mN_eq_zero (by simp [hm])).symm (fun _ => rfl) (fun _ => rfl)
      (fun _ => hpos) (by simp)
  | sends habort hnack hmore => exact hwf.sends hp htx hm hk hmore _
  | receives habort hroom hmore => exact hwf.receives hrx hm hk hroom hmore _
  | dataDone =>
    have ⟨hcount, _⟩ := hwf
    exact hwf.moved (by simp [hm]) rfl rfl (fun _ => rfl) (fun _ => rfl) (fun hd => hcount ⟨.inr hm, hd.2⟩) (by simp)
  | _ => exact Engine.transactionWf_of_idle rfl

end

/-! ## Branches and callbacks leave the master buffers alone -/

@[simp] theorem Engine.setBuffer_targetTx (e : Engine) (rb : RingBuffer) :
    e.setBuffer .targetTx rb = { e with targetTx := rb } := rfl
@[simp] theorem Engine.setBuffer_targetRx (e : Engine) (rb : RingBuffer) :
    e.setBuffer .targetRx rb = { e with targetRx := rb } := rfl

@[simp] theorem resolve_targetTx_of_simultaneous : BufName.resolve true .targetTx = .targetTx := rfl
@[simp] theorem resolve_targetRx_of_simultaneous : BufName.resolve true .targetRx = .targetRx := rfl

/-- The selected instance's master buffers are as they were. -/
@[simp] def State.sameMasterBuffers (s t : State) : Prop :=
  t.eng.masterTx = s.eng.masterTx ∧ t.eng.masterRx = s.eng.masterRx

section
variable {s t u : State}

theorem State.sameMasterBuffers.trans (h : s.sameMasterBuffers t) (h' : t.sameMasterBuffers u) : s.sameMasterBuffers u :=
  ⟨h'.left.trans h.left, h'.right.trans h.right⟩

theorem State.sameMasterBuffers.emit {o : Obs} (h : s.sameMasterBuffers t) : s.sameMasterBuffers (t.emit o) := h

theorem State.sameMasterBuffers.requestPhase (h : s.sameMasterBuffers t) : s.sameMasterBuffers t.requestPhase :=
  State.requestPhase_elim (fun _ => h.trans (by simp)) (h.trans (by simp))

/-- In a callback the stream commands work on the target buffers (R262). -/
theorem State.txb_of_callback (hcb : s.eng.cbState ≠ .none) : s.txb = .targetTx := by
  simp [State.txb, State.inCallback, hcb]

theorem State.rxb_of_callback (hcb : s.eng.cbState ≠ .none) : s.rxb = .targetRx := by
  simp [State.rxb, State.inCallback, hcb]

/-- With four buffers a branch, and any instruction in a callback, leaves the master buffers as they are (R210, R275). -/
theorem exec_sameMasterBuffers {i : Instr} (hsim : s.params.simultaneous = true)
    (hside : isBranch i = true ∨ s.eng.cbState ≠ .none) (he : exec i s = .next t) : s.sameMasterBuffers t := by
  have hcb : isBranch i = false → s.eng.cbState ≠ .none := fun h => hside.resolve_left (by simp [h])
  cases i with
  | write b =>
    cases he
    rw [State.txb_of_callback (hcb rfl)]
    exact .emit (State.tryPush_elim (by simp) (by simp [hsim]))
  | read =>
    cases he
    rw [State.rxb_of_callback (hcb rfl)]
    exact .emit (State.pop_elim (by simp) (by simp [hsim]))
  | available | peek => cases he; simp
  | getIncoming => cases he; exact keeps_ite ⟨rfl, rfl⟩ ⟨rfl, rfl⟩
  | cbReturn =>
    exact exec_cbReturn_elim (fun _ => by simp) (fun _ => by simp [hsim]) (fun _ => .requestPhase (by simp [hsim]))
      (fun _ => by simp) he
  | tBuserr => cases he; simp [hsim]
  | tStop => cases he; exact State.deliverRx_elim (fun _ _ => by simp) (by simp [hsim])
  | tAddrR => cases he; exact State.deliverRx_elim (fun _ _ => by simp) (.requestPhase (by simp [hsim]))
  | tDataRx =>
    cases he
    have hpush : s.sameMasterBuffers ((s.noteRead .sdata).tryPush .targetRx (s.port .sdata)).2 :=
      State.tryPush_elim (by simp) (by simp [hsim])
    exact keeps_ite (by simp [hsim]) (hpush.trans (by simp))
  | tDataReq =>
    have hpop : s.sameMasterBuffers ((s.setEng { s.eng with ackMatters := true }).pop .targetTx).2 :=
      State.pop_elim (by simp) (by simp [hsim])
    simp only [exec, execTDataReq] at he
    split at he <;> rename_i hp <;> rw [hp] at hpop <;> cases he <;> exact hpop.trans (by simp)
  | tNack => cases he; simp [hsim]
  | tAddrW | tIllegal | mRepstart | mAckRecv | mStop | mNackHold | mNackStop | tWaitStart | tAckResponse
  | tNackWaitStart => cases he; simp
  | _ => cases he; simp [s.inForeground_refuse _ (hcb rfl)]

/-! ## Instructions -/

theorem Engine.transactionWf.of_sameTransaction {p : Params} (h : s.eng.transactionWf p) (hsame : s.sameTransaction t)
    (hbufs : p.simultaneous = true → s.sameMasterBuffers t) : t.eng.transactionWf p := by
  have ⟨hdata, _, _, hwait⟩ := h
  obtain ⟨hm, hk, -, hc, hn⟩ := hsame.fields
  refine h.moved (by simp [hm]) hk hn (fun hsim => (hbufs hsim).2) (fun hsim => (hbufs hsim).1) ?_ ?_
  · rw [hm, hk, hn, hc]; exact hdata
  · rw [hm, hn]; exact hwait

/-- A branch, or an instruction in a callback, goes on beside a transaction without touching it. -/
theorem exec_transactionWf {i : Instr} (h : s.eng.transactionWf s.params)
    (hside : isBranch i = true ∨ s.eng.cbState ≠ .none) (he : exec i s = .next t) :
    s.sameTransaction t ∧ t.eng.transactionWf s.params := by
  have hsame : s.sameTransaction t := by
    cases hstarts : startsTransaction i with
    | false => exact exec_sameTransaction hstarts he
    | true =>
      have hcb := hside.resolve_left fun hb => by simp [startsTransaction_of_isBranch hb] at hstarts
      rcases exec_startsTransaction_cases hstarts he with ⟨-, rfl⟩ | ⟨hno, -⟩
      · simp
      · exact absurd hno hcb
  exact ⟨hsame, h.of_sameTransaction hsame fun hsim => exec_sameMasterBuffers hsim hside he⟩

/-- An instruction in foreground context finds M_IDLE, and leaves it or starts a transaction. -/
theorem exec_transactionWf_of_idle {i : Instr} (hidle : s.eng.mstate = .idle) (hcb : s.eng.cbState = .none)
    (ht : t.eng.masterTx.wf s.params.bufN = true) (he : exec i s = .next t) : t.eng.transactionWf s.params := by
  cases hstarts : startsTransaction i with
  | false => exact Engine.transactionWf_of_idle ((exec_sameTransaction hstarts he).mstate.trans hidle)
  | true =>
    rcases exec_startsTransaction_cases hstarts he with ⟨hno, -⟩ | ⟨-, hstart, hn, hrx⟩
    · exact absurd hcb hno
    · exact Engine.transactionWf_of_start hstart hn hrx ht

/-! ## The invariant -/

theorem State.transactionInv.eng (h : s.transactionInv) : s.eng.transactionWf s.params := by
  obtain ⟨-, hall, -⟩ := h
  exact hall s.sel

/-- At most one command in progress: said of the selected instance and the other one. -/
theorem State.oneCommand_iff (s : State) :
    ¬(s.engine0.mstate ≠ .idle ∧ s.hasInst .i1 = true ∧ s.engine1.mstate ≠ .idle) ↔
      (s.hasInst .i1 = true → s.eng.mstate = .idle ∨ s.otherEngine.mstate = .idle) := by
  rcases s with ⟨_, _, _, _, sel, _, _⟩
  cases sel <;> simp only [State.eng, State.otherEngine, State.engineOf, InstId.other] <;> tauto

/-- Only the selected instance differs, and where it is in a transaction now it was before, or the foreground was idle. -/
theorem State.transactionInv.of_eng (h : s.transactionInv) (ht : t.storageInv) (hout : s.sameOutside t)
    (hwf : t.eng.transactionWf s.params)
    (hone : t.eng.mstate ≠ .idle → s.eng.mstate ≠ .idle ∨ s.foregroundIdle = true) : t.transactionInv := by
  obtain ⟨-, hall, honly⟩ := h
  obtain ⟨hp, hsel, -, hother⟩ := hout
  obtain ⟨-, hwfOther⟩ := (s.forall_engineOf _).mp hall
  refine ⟨ht, (t.forall_engineOf (fun e => e.transactionWf t.params)).mpr ?_, t.oneCommand_iff.mpr fun hi => ?_⟩
  · rw [hp, hother]
    exact ⟨hwf, hwfOther⟩
  · have hi' : s.hasInst .i1 = true := by simpa [State.hasInst, hp] using hi
    rw [hother]
    refine or_iff_not_imp_left.mpr fun hbusy => ?_
    rcases hone hbusy with hbusy' | hidle
    · exact (s.oneCommand_iff.mp honly hi').resolve_left hbusy'
    · refine State.mstate_eq_idle_of_foregroundIdle (i := s.sel.other) hidle ?_
      cases s.sel with
      | i0 => exact hi'
      | i1 => rfl

theorem State.transactionInv.taking (h : s.transactionInv) {x : Stimulus} (rest : List Stimulus)
    (hadm : s.admits x = true) : (s.taking x.inst rest).transactionInv := by
  obtain ⟨hs, hall, honly⟩ := h
  exact ⟨hs.taking rest hadm, hall, honly⟩

/-- A transaction as it was, on whatever state is left by operations on other registers. -/
theorem State.transactionInv.of_sameTransaction (h : s.transactionInv) (ht : t.storageInv) (hout : s.sameOutside t)
    (hsame : s.sameTransaction t) (hwf : t.eng.transactionWf s.params) : t.transactionInv :=
  h.of_eng ht hout hwf fun hne => .inl (hsame.mstate ▸ hne)

theorem State.transactionInv.engineStep (h : s.transactionInv) : s.engineStep.transactionInv := by
  obtain ⟨e', new, hrow, heng, -⟩ := s.engineStep_follows
  have hs : s.storageInv := h.1
  have ⟨hp, _, hall⟩ := hs
  refine h.of_eng (storageInv_kept.engineStep hs) s.engineStep_sameOutside ?_ fun hne => .inl fun hidle => ?_
  · rw [heng]
    exact hrow.transactionWf hp (hall s.sel) h.eng
  · rw [hidle] at hrow
    cases hrow
    exact hne (heng ▸ hidle)

theorem State.transactionInv.of_step (h : s.transactionInv) (hstep : step s = .next t) : t.transactionInv := by
  have hs := h.1.of_step hstep
  cases step_cases hstep with
  | waits hsched ht => exact ht ▸ h
  | drops x rest hsched hadm ht => exact ht ▸ h
  | refuses i w r rest hsched hadm hdec ht => exact ht ▸ h.taking rest hadm
  | engine i rest hsched hadm ht => exact ht ▸ (h.taking rest hadm).engineStep
  | command i w ins rest hsched hadm hdec hexec =>
    have hu : (s.taking i rest).transactionInv := h.taking rest hadm
    have hout := exec_sameOutside hexec
    by_cases hcb : (s.engineOf i).cbState = .none
    · have hidle := State.mstate_eq_idle_of_admits hadm hcb
      have htx : t.eng.masterTx.wf s.params.bufN = true := by
        obtain ⟨-, -, hall⟩ := hs
        have hwf := Engine.buffer_wf .masterTx (hall t.sel)
        rwa [show t.params = s.params from hout.params] at hwf
      have hfree : (s.taking i rest).foregroundIdle = true := State.foregroundIdle_of_admits (s := s) hadm hcb
      rw [← taking_eng s i rest] at hidle hcb
      exact hu.of_eng hs hout (exec_transactionWf_of_idle hidle hcb htx hexec) fun _ => .inr hfree
    · rw [← taking_eng s i rest] at hcb
      obtain ⟨hsame, hwf⟩ := exec_transactionWf hu.eng (.inr hcb) hexec
      exact hu.of_sameTransaction hs hout hsame hwf
  | event i rest hsched hadm hexec =>
    have hu : (s.taking i rest).enterEvent.transactionInv := h.taking rest hadm
    obtain ⟨hsame, hwf⟩ := exec_transactionWf hu.eng (.inl (isBranch_decodeKey _)) hexec
    exact hu.of_sameTransaction hs (exec_sameOutside hexec) hsame hwf
  | periph i ws rest hsched hadm ht =>
    subst ht
    have hu : (s.taking i rest).transactionInv := h.taking rest hadm
    exact hu.of_sameTransaction hs ((sameOutside_kept _).periphStep ws (.refl _)) (by simp)
      (hu.eng.of_sameTransaction (by simp) fun _ => by simp)

end

/-- Settles O48: a row of the engine keeps the counts, an instruction beside a transaction leaves it alone, and one in the
foreground finds the foreground idle. -/
theorem stepKeepsTransactionInvariant : Obligations.StepKeepsTransactionInvariant := by
  unfold Obligations.StepKeepsTransactionInvariant
  exact fun _ _ h hstep => h.of_step hstep

end Sys2Proof.Machine
end

section
/-! PROOFS. Whole transactions with a peripheral that acknowledges and does not move (R182, R188, R189, R195): three
steps to the data phase, two for each byte, and the step that ends it. -/

namespace Sys2Proof.Machine

/-! ## Steps in a row -/

/-- From `s` to `t` only the selected engine, the trace and nothing else moved: to `e`, observing `new`. -/
def State.goesTo (s t : State) (e : Engine) (new : List Obs) : Prop := s.framed t ∧ t.eng = e ∧ s.observed t new

section
variable {s t u : State} {n : Nat} {e e' : Engine} {m : MState} {k : MKind} {new new' : List Obs}

theorem State.framed.trans (h : s.framed t) (h' : t.framed u) : s.framed u := by
  obtain ⟨hout, hdraws⟩ := h
  obtain ⟨hout', hdraws'⟩ := h'
  exact ⟨hout.trans hout', hdraws'.trans hdraws⟩

theorem State.observed.trans (h : s.observed t new) (hsel : t.sel = s.sel) (h' : t.observed u new') :
    s.observed u (new ++ new') := by
  simp only [State.observed] at *
  rw [h', h, hsel, List.map_append, List.append_assoc]

theorem State.framed.params (h : s.framed t) : t.params = s.params := h.1.params

theorem State.goesTo.params (h : s.goesTo t e new) : t.params = s.params := h.1.params

theorem State.goesTo.eng (h : s.goesTo t e new) : t.eng = e := h.2.1

theorem State.goesTo.trans (h : s.goesTo t e new) (h' : t.goesTo u e' new') : s.goesTo u e' (new ++ new') := by
  obtain ⟨hframe, -, hobs⟩ := h
  obtain ⟨hframe', he, hobs'⟩ := h'
  have ⟨⟨_, hsel, _⟩, _⟩ := hframe
  exact ⟨hframe.trans hframe', he, hobs.trans hsel hobs'⟩

/-- The tests of the rows of one state and kind exclude each other. -/
theorem EngineRow.deterministic (h : EngineRow n e m k e' new) {e'' : Engine} (h' : EngineRow n e m k e'' new') :
    e' = e'' ∧ new = new' := by
  cases h <;> cases h' <;> simp_all [-not_lt, -BitVec.not_lt]

/-- A row whose tests hold is the one the step takes. -/
theorem EngineRow.goesTo (h : EngineRow s.params.bufN s.eng m k e' new) (hm : s.eng.mstate = m := by rfl)
    (hk : s.eng.mKind = k := by rfl) : s.goesTo s.engineStep e' new := by
  subst hm hk
  obtain ⟨e'', new', hrow, he, hobs, hframe⟩ := s.engineStep_follows
  obtain ⟨rfl, rfl⟩ := h.deterministic hrow
  exact ⟨hframe, he, hobs⟩

theorem State.engineSteps_add (a b : Nat) : ∀ s : State, s.engineSteps (a + b) = (s.engineSteps a).engineSteps b := by
  induction a with
  | zero => intro s; rw [Nat.zero_add]; rfl
  | succ a ih => intro s; rw [Nat.succ_add]; exact ih s.engineStep

/-! ## The acknowledging sample -/

/-- The sample of a peripheral that acknowledges: completion, no error, no NACK. -/
structure Acknowledges (st : Byte) : Prop where
  done : phaseDone st = true
  go : phaseAborted st = false
  ack : mRxNack st = false

theorem Acknowledges.notLost {st : Byte} (h : Acknowledges st) : mArbLost st = false :=
  (Bool.or_eq_false_iff.mp h.go).1

/-- An acknowledged address (R184, R190). -/
theorem State.engineStep_addressed (s : State) (h : Acknowledges s.eng.port.mstatus) (hm : s.eng.mstate = .addrWait)
    (hcount : s.eng.mKind = .read → s.eng.mCount ≠ 0) :
    s.goesTo s.engineStep { s.eng with mN := 0, mstate := .data } [.portRead .mstatus s.eng.port.mstatus] := by
  cases hk : s.eng.mKind with
  | write => exact (EngineRow.addressedWrite h.done h.notLost).goesTo hm hk
  | read => exact (EngineRow.addressedRead h.done h.ack (hcount hk)).goesTo hm hk

/-- With the bus idle, three steps take a transaction from M_START to its data phase (R183, R184, R190). -/
theorem State.engineSteps_address (h : Acknowledges s.eng.port.mstatus) (hm : s.eng.mstate = .start)
    (hknown : busState s.eng.port.mstatus ≠ .unknown) (hfree : busState s.eng.port.mstatus ≠ .busy)
    (hcount : s.eng.mKind = .read → s.eng.mCount ≠ 0) :
    s.goesTo (s.engineSteps 3)
      { s.eng with mstate := .data, mN := 0,
                   port := { s.eng.port with maddr := phaseAddress s.eng.mKind s.eng.txnAddress } }
      [.portRead .mstatus s.eng.port.mstatus, .portRead .mstatus s.eng.port.mstatus,
       .portWrite .maddr (phaseAddress s.eng.mKind s.eng.txnAddress), .portRead .mstatus s.eng.port.mstatus] := by
  have h1 := (EngineRow.ready hknown).goesTo hm
  have e1 := h1.eng
  have h2 : s.engineStep.goesTo _ _ _ := (EngineRow.address (by rw [e1]; exact hfree)).goesTo (by rw [e1])
  have e2 := h2.eng
  rw [e1] at h2 e2
  have h3 := s.engineStep.engineStep.engineStep_addressed (by rw [e2]; exact h) (by rw [e2]) (by rw [e2]; exact hcount)
  rw [e2] at h3
  exact (h1.trans h2).trans h3

/-- The peripheral's wait for a byte is over at once (R187). -/
theorem State.engineStep_dataDone (h : Acknowledges s.eng.port.mstatus) (hm : s.eng.mstate = .dataWait) :
    s.goesTo s.engineStep { s.eng with mstate := .data } [.portRead .mstatus s.eng.port.mstatus] :=
  (EngineRow.dataDone h.done).goesTo hm

/-! ## The end of a transaction -/

/-- From `s` to `t` the transaction ended, with the bytes it sent and one response, its last observation. -/
def State.endsWith (s t : State) (sent : List Byte) (v : Response) : Prop :=
  s.framed t ∧ t.eng.mstate = .idle ∧ ∃ new, s.observed t (new ++ [.respond v]) ∧
    new.filterMap Obs.sentByte = sent ∧ new.all (fun o => !o.isResponse) = true

theorem State.goesTo.endsWith {v : Response} (h : s.goesTo t e (new ++ [.respond v])) (he : e.mstate = .idle)
    (hnone : new.all (fun o => !o.isResponse) = true) : s.endsWith t (new.filterMap Obs.sentByte) v := by
  obtain ⟨hframe, rfl, hobs⟩ := h
  exact ⟨hframe, he, new, hobs, rfl, hnone⟩

/-- Steps without a response before those that end it. -/
theorem State.goesTo.trans_endsWith {sent : List Byte} {v : Response} (h : s.goesTo t e new)
    (hnone : new.all (fun o => !o.isResponse) = true) (h' : t.endsWith u sent v) :
    s.endsWith u (new.filterMap Obs.sentByte ++ sent) v := by
  obtain ⟨hframe, hidle, new', hobs, rfl, hnone'⟩ := h'
  have ⟨hframe₀, _, hobs₀⟩ := h
  have ⟨⟨_, hsel, _⟩, _⟩ := hframe₀
  refine ⟨hframe₀.trans hframe, hidle, new ++ new', ?_, List.filterMap_append, ?_⟩
  · rw [List.append_assoc]
    exact hobs₀.trans hsel hobs
  · rw [List.all_append, hnone, hnone']
    rfl

/-! ## A write -/

theorem RingBuffer.unread_eq_nil_iff {rb : RingBuffer} (h : rb.wf n = true) : rb.unread n = [] ↔ rb.isEmpty = true := by
  obtain ⟨hh, ht, _⟩ := (rb.wf_iff n).mp h
  rw [rb.isEmpty_iff n hh ht, ← List.length_eq_zero_iff, rb.length_unread]

/-- One byte of a write: sent, and waited for (R186, R187). -/
theorem State.engineSteps_sendsOne (h : Acknowledges s.eng.port.mstatus) (hm : s.eng.mstate = .data)
    (hk : s.eng.mKind = .write) (hmore : s.eng.masterTx.isEmpty = false) :
    s.goesTo (s.engineSteps 2)
      { s.eng with mstate := .data, mN := s.eng.mN + 1, masterTx := (s.eng.masterTx.pop s.params.bufN).2,
                   port := { s.eng.port with mdata := s.eng.masterTx.storage.read s.eng.masterTx.tail } }
      [.portRead .mstatus s.eng.port.mstatus, .portWrite .mdata (s.eng.masterTx.storage.read s.eng.masterTx.tail),
       .portRead .mstatus s.eng.port.mstatus] := by
  have h1 := (EngineRow.sends h.go h.ack hmore).goesTo hm hk
  have e1 := h1.eng
  have h2 := s.engineStep.engineStep_dataDone (by rw [e1]; exact h) (by rw [e1])
  rw [e1] at h2
  exact h1.trans h2

/-- With nothing left to send a write ends in one step (R188). -/
theorem State.engineStep_endsWrite (h : Acknowledges s.eng.port.mstatus) (hm : s.eng.mstate = .data)
    (hk : s.eng.mKind = .write) (hend : s.eng.masterTx.isEmpty = true) :
    s.endsWith s.engineStep [] (byteResponse s.eng.mN) ∧ s.engineStep.eng.masterTx = s.eng.masterTx ∧
      s.engineStep.eng.port.mcmd = if s.eng.mSendStop = true then 0x03 else s.eng.port.mcmd := by
  cases hstop : s.eng.mSendStop with
  | true =>
    have h1 := (EngineRow.sentAndStops h.go h.ack hend hstop).goesTo hm hk
    exact ⟨State.goesTo.endsWith (new := [_, _]) h1 rfl rfl, by rw [h1.eng], by rw [h1.eng]; rfl⟩
  | false =>
    have h1 := (EngineRow.sentAndHolds h.go h.ack hend hstop).goesTo hm hk
    exact ⟨State.goesTo.endsWith (new := [_]) h1 rfl rfl, by rw [h1.eng], by rw [h1.eng]; rfl⟩

theorem add_one_add_ofNat (b : Byte) (n : Nat) : b + 1 + BitVec.ofNat 8 n = b + BitVec.ofNat 8 (n + 1) := by
  rw [BitVec.add_assoc, BitVec.ofNat_add, BitVec.add_comm 1]
  rfl

theorem byteResponse_ofNat {n : Nat} (h : n < 256) : byteResponse (BitVec.ofNat 8 n) = BitVec.ofNat 16 n := by
  apply BitVec.eq_of_toNat_eq
  rw [byteResponse_toNat, BitVec.toNat_ofNat, BitVec.toNat_ofNat]
  omega

/-- The data phase of a write, by induction on the bytes staged. -/
theorem State.engineSteps_sends {bytes : List Byte} : ∀ {s : State}, Acknowledges s.eng.port.mstatus →
    s.eng.mstate = .data → s.eng.mKind = .write → s.eng.masterTx.wf s.params.bufN = true →
    s.eng.masterTx.unread s.params.bufN = bytes → ∀ {t}, t = s.engineSteps (2 * bytes.length + 1) →
    s.endsWith t bytes (byteResponse (s.eng.mN + BitVec.ofNat 8 bytes.length)) ∧
      t.eng.masterTx.unread s.params.bufN = [] ∧
      t.eng.port.mcmd = if s.eng.mSendStop = true then 0x03 else s.eng.port.mcmd := by
  induction bytes with
  | nil =>
    intro s h hm hk hwf hnone t ht
    obtain rfl : t = s.engineStep := ht
    obtain ⟨hend, htx, hcmd⟩ := s.engineStep_endsWrite h hm hk ((RingBuffer.unread_eq_nil_iff hwf).mp hnone)
    exact ⟨by simpa using hend, by rw [htx]; exact hnone, hcmd⟩
  | cons b rest ih =>
    intro s h hm hk hwf hbytes t ht
    have hmore : s.eng.masterTx.isEmpty = false := by
      simpa [hbytes] using (RingBuffer.unread_eq_nil_iff hwf).not
    have hone := s.engineSteps_sendsOne h hm hk hmore
    have hparams : (s.engineSteps 2).params = s.params := hone.params
    obtain ⟨hfirst, hrest⟩ := RingBuffer.pop_unread hwf
    rw [hbytes, List.tail_cons] at hrest
    have hbyte : s.eng.masterTx.storage.read s.eng.masterTx.tail = b := by
      simpa [RingBuffer.pop_of_nonempty _ hmore, hbytes] using hfirst
    have hsteps : t = (s.engineSteps 2).engineSteps (2 * rest.length + 1) := by
      rw [ht, ← State.engineSteps_add]
      congr 1
      rw [List.length_cons]
      omega
    have hloop := ih (s := s.engineSteps 2) (by rw [hone.eng]; exact h) (by rw [hone.eng]) (by rw [hone.eng]; exact hk)
      (by rw [hone.eng, hparams]; exact RingBuffer.pop_wf _ _ hwf) (by rw [hone.eng, hparams]; exact hrest) hsteps
    rw [hone.eng, hparams] at hloop
    obtain ⟨hend, hnone, hcmd⟩ := hloop
    refine ⟨?_, hnone, hcmd⟩
    have hends := hone.trans_endsWith rfl hend
    rwa [hbyte, add_one_add_ofNat] at hends

/-- Settles O57: three steps address the target, and the data phase sends what is staged. -/
theorem acknowledgedWriteSendsEveryByte : Obligations.AcknowledgedWriteSendsEveryByte := by
  unfold Obligations.AcknowledgedWriteSendsEveryByte
  intro s ⟨hp, _, hall⟩ hm hk hn hdone hgo hack hknown hfree
  have h : Acknowledges s.eng.port.mstatus := ⟨hdone, hgo, hack⟩
  have hwf : s.eng.masterTx.wf s.params.bufN = true := Engine.buffer_wf .masterTx (hall s.sel)
  have haddress := State.engineSteps_address h hm hknown hfree (by simp [hk])
  have hparams : (s.engineSteps 3).params = s.params := haddress.params
  intro bytes t
  have hsteps : t = (s.engineSteps 3).engineSteps (2 * bytes.length + 1) := by
    rw [← State.engineSteps_add, Nat.add_comm 3]
  have hdata := State.engineSteps_sends (s := s.engineSteps 3) (bytes := bytes) (by rw [haddress.eng]; exact h)
    (by rw [haddress.eng]) (by rw [haddress.eng]; exact hk) (by rw [haddress.eng, hparams]; exact hwf)
    (by rw [haddress.eng, hparams]) hsteps
  rw [haddress.eng, hparams] at hdata
  obtain ⟨hend, hnone, hcmd⟩ := hdata
  obtain ⟨hframe, hidle, new, hobs, hsent, hquiet⟩ := haddress.trans_endsWith rfl hend
  have hvalue : byteResponse (0 + BitVec.ofNat 8 bytes.length) = BitVec.ofNat 16 bytes.length := by
    have hlt := RingBuffer.available_lt hwf
    have hbound := Params.bufN_le hp
    rw [zero_add, byteResponse_ofNat (by rw [RingBuffer.length_unread]; omega)]
  rw [hvalue] at hobs
  have hparams' : t.params = s.params := hframe.params
  rw [hparams']
  refine ⟨hidle, hnone, fun hstop => ?_, fun hstop => ?_, new, hobs, hsent, hquiet⟩ <;> simpa [hstop] using hcmd

/-! ## A read -/

theorem RingBuffer.isFull_eq_false {rb : RingBuffer} (h : rb.wf n = true) (hroom : rb.available n < n - 1) :
    rb.isFull n = false := by
  obtain ⟨hh, ht, _⟩ := (rb.wf_iff n).mp h
  rw [← Bool.not_eq_true, rb.isFull_iff n hh ht]
  omega

/-- One byte of a read that wants more: stored, acknowledged and waited for (R187, R193). -/
theorem State.engineSteps_receivesOne (h : Acknowledges s.eng.port.mstatus) (hm : s.eng.mstate = .data)
    (hk : s.eng.mKind = .read) (hroom : s.eng.masterRx.isFull s.params.bufN = false)
    (hmore : s.eng.mN + 1 < s.eng.mCount) :
    s.goesTo (s.engineSteps 2)
      { s.eng with mstate := .data, mN := s.eng.mN + 1,
                   masterRx := (s.eng.masterRx.tryPush s.params.bufN s.eng.port.mdata).2,
                   port := { s.eng.port with mcmd := MasterCommand.ackRecv.code } }
      [.portRead .mstatus s.eng.port.mstatus, .portRead .mdata s.eng.port.mdata,
       .portWrite .mcmd MasterCommand.ackRecv.code, .portRead .mstatus s.eng.port.mstatus] := by
  have h1 := (EngineRow.receives h.go hroom hmore).goesTo hm hk
  have e1 := h1.eng
  have h2 := s.engineStep.engineStep_dataDone (by rw [e1]; exact h) (by rw [e1])
  rw [e1] at h2
  exact h1.trans h2

/-- The last byte of a read: stored, and the final NACK (R195). -/
theorem State.engineStep_endsRead (h : Acknowledges s.eng.port.mstatus) (hm : s.eng.mstate = .data)
    (hk : s.eng.mKind = .read) (hroom : s.eng.masterRx.isFull s.params.bufN = false)
    (hlast : s.eng.mN + 1 = s.eng.mCount) :
    s.endsWith s.engineStep [] (byteResponse s.eng.mCount) ∧
      s.engineStep.eng.masterRx = (s.eng.masterRx.tryPush s.params.bufN s.eng.port.mdata).2 ∧
      s.engineStep.eng.port.mcmd = (readEndCommand s.eng.mSendStop).code := by
  have h1 := (EngineRow.receivesLast h.go hroom (by rw [hlast]; exact BitVec.lt_irrefl _)).goesTo hm hk
  rw [hlast] at h1
  exact ⟨State.goesTo.endsWith (new := [_, _, _]) h1 rfl rfl, by rw [h1.eng], by rw [h1.eng]⟩

/-- The data phase of a read, by induction on the bytes wanted after the next one. -/
theorem State.engineSteps_receives {more : Nat} : ∀ {s : State}, Acknowledges s.eng.port.mstatus →
    s.eng.mstate = .data → s.eng.mKind = .read → s.eng.masterRx.wf s.params.bufN = true →
    s.eng.mN.toNat + (more + 1) = s.eng.mCount.toNat →
    s.eng.masterRx.available s.params.bufN + (more + 1) ≤ s.params.bufN - 1 →
    ∀ {t}, t = s.engineSteps (2 * more + 1) →
    s.endsWith t [] (byteResponse s.eng.mCount) ∧
      t.eng.masterRx.unread s.params.bufN =
        s.eng.masterRx.unread s.params.bufN ++ List.replicate (more + 1) s.eng.port.mdata ∧
      t.eng.port.mcmd = (readEndCommand s.eng.mSendStop).code := by
  induction more with
  | zero =>
    intro s h hm hk hwf hcount hfit t ht
    obtain rfl : t = s.engineStep := ht
    have hroom := RingBuffer.isFull_eq_false hwf (by omega)
    obtain ⟨hend, hrx, hcmd⟩ := s.engineStep_endsRead h hm hk hroom (by bv_omega)
    exact ⟨hend, by rw [hrx]; exact RingBuffer.unread_tryPush hwf (by rw [RingBuffer.tryPush_of_room _ hroom]), hcmd⟩
  | succ more ih =>
    intro s h hm hk hwf hcount hfit t ht
    have hroom := RingBuffer.isFull_eq_false hwf (by omega)
    have hacc : (s.eng.masterRx.tryPush s.params.bufN s.eng.port.mdata).1 = true := by
      rw [RingBuffer.tryPush_of_room _ hroom]
    have hstored := RingBuffer.available_tryPush hwf s.eng.port.mdata
    rw [hacc, if_pos rfl] at hstored
    have hone := s.engineSteps_receivesOne h hm hk hroom (by bv_omega)
    have hparams : (s.engineSteps 2).params = s.params := hone.params
    have hsteps : t = (s.engineSteps 2).engineSteps (2 * more + 1) := by
      rw [ht, ← State.engineSteps_add]
      congr 1
      omega
    have hloop := ih (s := s.engineSteps 2) (by rw [hone.eng]; exact h) (by rw [hone.eng]) (by rw [hone.eng]; exact hk)
      (by rw [hone.eng, hparams]; exact RingBuffer.tryPush_wf _ _ _ hwf)
      (by rw [hone.eng]; dsimp only; bv_omega) (by rw [hone.eng, hparams]; dsimp only; omega) hsteps
    rw [hone.eng, hparams] at hloop
    obtain ⟨hend, hunread, hcmd⟩ := hloop
    refine ⟨hone.trans_endsWith rfl hend, ?_, hcmd⟩
    rw [hunread]
    dsimp only
    rw [RingBuffer.unread_tryPush hwf hacc, List.append_assoc, List.singleton_append, ← List.replicate_succ]

/-- Settles O58: three steps address the target, and the data phase stores as many bytes as are wanted. -/
theorem acknowledgedReadStoresEveryByte : Obligations.AcknowledgedReadStoresEveryByte := by
  unfold Obligations.AcknowledgedReadStoresEveryByte
  intro s ⟨hp, _, hall⟩ hm hk hn hcount hfit hempty hdone hgo hack hknown hfree
  have h : Acknowledges s.eng.port.mstatus := ⟨hdone, hgo, hack⟩
  have hwf : s.eng.masterRx.wf s.params.bufN = true := Engine.buffer_wf .masterRx (hall s.sel)
  have haddress := State.engineSteps_address h hm hknown hfree fun _ => hcount
  have hparams : (s.engineSteps 3).params = s.params := haddress.params
  intro t
  obtain ⟨more, hmore⟩ : ∃ more, s.eng.mCount.toNat = more + 1 := Nat.exists_eq_succ_of_ne_zero (by bv_omega)
  have hsteps : t = (s.engineSteps 3).engineSteps (2 * more + 1) := by
    rw [← State.engineSteps_add]
    show s.engineSteps (2 * s.eng.mCount.toNat + 2) = _
    congr 1
    omega
  have havail : s.eng.masterRx.available s.params.bufN = 0 := by
    rw [← RingBuffer.length_unread, hempty, List.length_nil]
  have hdata := State.engineSteps_receives (s := s.engineSteps 3) (more := more) (by rw [haddress.eng]; exact h)
    (by rw [haddress.eng]) (by rw [haddress.eng]; exact hk) (by rw [haddress.eng, hparams]; exact hwf)
    (by rw [haddress.eng]; simp [hmore]) (by rw [haddress.eng, hparams]; dsimp only; omega) hsteps
  rw [haddress.eng, hparams] at hdata
  obtain ⟨hend, hunread, hcmd⟩ := hdata
  obtain ⟨hframe, hidle, new, hobs, -, hquiet⟩ := haddress.trans_endsWith rfl hend
  have hparams' : t.params = s.params := hframe.params
  rw [hparams', ← readEndCommand_code]
  refine ⟨hidle, ?_, hcmd, new, hobs, hquiet⟩
  rw [hunread, hmore]
  simp [hempty]

end

end Sys2Proof.Machine
end

section
/-! PROOFS. The branch a key selects, bit by bit (R211). -/

namespace Sys2Proof

/-- The bits of the key each branch is selected by (R211). -/
structure KeySelection (k : Key) : Prop where
  buserr : decodeKey k = .tBuserr k ↔ k[2] = true ∨ k[3] = true
  stop : decodeKey k = .tStop k ↔ k[6] = true ∧ k[7] = false ∧ k[0] = false ∧ k[2] = false ∧ k[3] = false
  addrW : decodeKey k = .tAddrW k ↔
    k[6] = true ∧ k[7] = false ∧ k[0] = true ∧ k[1] = false ∧ k[2] = false ∧ k[3] = false
  addrR : decodeKey k = .tAddrR k ↔
    k[6] = true ∧ k[7] = false ∧ k[0] = true ∧ k[1] = true ∧ k[2] = false ∧ k[3] = false
  dataRx : decodeKey k = .tDataRx k ↔ k[7] = true ∧ k[6] = false ∧ k[1] = false ∧ k[2] = false ∧ k[3] = false
  dataReq : decodeKey k = .tDataReq k ↔
    k[7] = true ∧ k[6] = false ∧ k[1] = true ∧ k[2] = false ∧ k[3] = false ∧ ¬(k[8] = true ∧ k[4] = true)
  nack : decodeKey k = .tNack k ↔
    k[7] = true ∧ k[6] = false ∧ k[1] = true ∧ k[4] = true ∧ k[2] = false ∧ k[3] = false ∧ k[8] = true
  illegal : decodeKey k = .tIllegal k ↔ k[2] = false ∧ k[3] = false ∧ k[7] = k[6]

/-- The selecting bits are those the (mask, match) pairs of R110 look at. -/
theorem keySelection (k : Key) : KeySelection k := by
  obtain ⟨hbuserr, hstop, haddrW, haddrR, hdataRx, hdataReq, hnack, hillegal, -⟩ := keyPairsSelectTheBranch k
  constructor <;> simp only [hbuserr, hstop, haddrW, haddrR, hdataRx, hdataReq, hnack, hillegal, Key.and_eq_iff]
  case buserr => simp
  case illegal => cases k[6] <;> cases k[7] <;> simp
  case dataReq => cases k[8] <;> simp [and_assoc, and_comm]
  all_goals simp [and_assoc, and_left_comm, and_comm]

end Sys2Proof
end

section
/-! PROOFS. What one segment of a dispatcher run can be, said once (R212): the paths of the eight branches (R215 to
R223) and of CB_RETURN (R278), each with the engine after it and its observations. -/

namespace Sys2Proof.Machine

/-! ## The rows -/

/-- The paths of a segment, from engine `e` whose target buffers are those named `rx` and `tx`, of length `n`: its
tests, the engine after it, and what is observed. -/
inductive SegmentRow (n : Nat) (rx tx : BufName) (e : Engine) : Instr → Engine → List Obs → Prop
  | busError {k} :
    SegmentRow n rx tx e (.tBuserr k)
      { (e.setBuffer rx (e.buffer rx).rewind).setBuffer tx (e.buffer tx).rewind with lastFault := .busError }
      [.portRead .sdata e.port.sdata]
  | stopNotifies {k} (hbytes : (e.buffer rx).available n ≠ 0) (hhandle : e.onReceive ≠ 0) :
    SegmentRow n rx tx e (.tStop k)
      { e with port := { e.port with sstatus := e.port.sstatus &&& ~~~clearStop }, cbState := .rxStop }
      [.portWrite .sstatus clearStop,
       .notifyReceive e.onReceive (BitVec.ofNat 8 ((e.buffer rx).available n))]
  | stopDiscards {k} (hskip : (e.buffer rx).available n = 0 ∨ e.onReceive = 0) :
    SegmentRow n rx tx e (.tStop k)
      { e.setBuffer rx (e.buffer rx).discard with
        port := { e.port with sstatus := e.port.sstatus &&& ~~~clearStop }, cbState := .none }
      [.portWrite .sstatus clearStop]
  | writeAddressed {k} :
    SegmentRow n rx tx e (.tAddrW k)
      { e with incomingAddress := e.port.sdata, incomingValid := true,
               port := { e.port with scmd := TargetCommand.ackResponse.code } }
      [.portRead .sdata e.port.sdata, .portWrite .scmd TargetCommand.ackResponse.code]
  | readAddressedNotifies {k} (hbytes : (e.buffer rx).available n ≠ 0) (hhandle : e.onReceive ≠ 0) :
    SegmentRow n rx tx e (.tAddrR k)
      { e with incomingAddress := e.port.sdata, incomingValid := true, cbState := .rxAddr }
      [.portRead .sdata e.port.sdata,
       .notifyReceive e.onReceive (BitVec.ofNat 8 ((e.buffer rx).available n))]
  | readAddressedRequests {k} (hskip : (e.buffer rx).available n = 0 ∨ e.onReceive = 0)
      (hrequest : e.onRequest ≠ 0) :
    SegmentRow n rx tx e (.tAddrR k)
      { ({ e with incomingAddress := e.port.sdata, incomingValid := true } : Engine).setBuffer rx
          (e.buffer rx).discard with cbState := .req }
      [.portRead .sdata e.port.sdata, .notifyRequest e.onRequest]
  | readAddressedAcknowledges {k} (hskip : (e.buffer rx).available n = 0 ∨ e.onReceive = 0)
      (hrequest : e.onRequest = 0) :
    SegmentRow n rx tx e (.tAddrR k)
      { ({ e with incomingAddress := e.port.sdata, incomingValid := true } : Engine).setBuffer rx
          (e.buffer rx).discard with
        cbState := .none, port := { e.port with scmd := TargetCommand.ackResponse.code } }
      [.portRead .sdata e.port.sdata, .portWrite .scmd TargetCommand.ackResponse.code]
  | overflows {k} (hfull : (e.buffer rx).isFull n = true) :
    SegmentRow n rx tx e (.tDataRx k)
      { e.setBuffer rx (e.buffer rx).discard with
        lastFault := .localBufferFull, port := { e.port with scmd := TargetCommand.nackWaitStart.code } }
      [.portWrite .scmd TargetCommand.nackWaitStart.code]
  | stores {k} (hroom : (e.buffer rx).isFull n = false) :
    SegmentRow n rx tx e (.tDataRx k)
      { e.setBuffer rx ((e.buffer rx).tryPush n e.port.sdata).2 with
        port := { e.port with scmd := TargetCommand.ackResponse.code } }
      [.portRead .sdata e.port.sdata, .portWrite .scmd TargetCommand.ackResponse.code]
  | sends {k} (hstaged : (e.buffer tx).isEmpty = false) :
    SegmentRow n rx tx e (.tDataReq k)
      { e.setBuffer tx ((e.buffer tx).pop n).2 with
        ackMatters := true,
        port := { e.port with sdata := (e.buffer tx).storage.read (e.buffer tx).tail,
                              scmd := TargetCommand.ackResponse.code } }
      [.portWrite .sdata ((e.buffer tx).storage.read (e.buffer tx).tail),
       .portWrite .scmd TargetCommand.ackResponse.code]
  | sendsNothing {k} (hnone : (e.buffer tx).isEmpty = true) :
    SegmentRow n rx tx e (.tDataReq k)
      { e with ackMatters := true, port := { e.port with scmd := TargetCommand.waitStart.code } }
      [.portWrite .scmd TargetCommand.waitStart.code]
  | nacked {k} :
    SegmentRow n rx tx e (.tNack k)
      { e.setBuffer tx (e.buffer tx).discard with
        ackMatters := false, port := { e.port with scmd := TargetCommand.waitStart.code } }
      [.portWrite .scmd TargetCommand.waitStart.code]
  | illegal {k} :
    SegmentRow n rx tx e (.tIllegal k) { e with port := { e.port with scmd := TargetCommand.nackWaitStart.code } }
      [.portWrite .scmd TargetCommand.nackWaitStart.code]
  | returnRefused (hcb : e.cbState = .none) : SegmentRow n rx tx e .cbReturn e [.refused .wrongContext]
  | returnStops (hcb : e.cbState = .rxStop) :
    SegmentRow n rx tx e .cbReturn { e.setBuffer rx (e.buffer rx).discard with cbState := .none } []
  | returnRequests (hcb : e.cbState = .rxAddr) (hrequest : e.onRequest ≠ 0) :
    SegmentRow n rx tx e .cbReturn { e.setBuffer rx (e.buffer rx).discard with cbState := .req }
      [.notifyRequest e.onRequest]
  | returnAcknowledges (hcb : e.cbState = .rxAddr) (hrequest : e.onRequest = 0) :
    SegmentRow n rx tx e .cbReturn
      { e.setBuffer rx (e.buffer rx).discard with
        cbState := .none, port := { e.port with scmd := TargetCommand.ackResponse.code } }
      [.portWrite .scmd TargetCommand.ackResponse.code]
  | returnReplies (hcb : e.cbState = .req) :
    SegmentRow n rx tx e .cbReturn
      { e with cbState := .none, port := { e.port with scmd := TargetCommand.ackResponse.code } }
      [.portWrite .scmd TargetCommand.ackResponse.code]

/-- State `t` is `s` after a segment by a row of the instruction. -/
def State.runsSegment (s t : State) (i : Instr) : Prop :=
  ∃ e' new, SegmentRow s.params.bufN (BufName.targetRx.resolve s.params.simultaneous)
    (BufName.targetTx.resolve s.params.simultaneous) s.eng i e' new ∧ s.goesTo t e' new

section
variable {s t : State} {i : Instr}

theorem SegmentRow.runsSegment {e' : Engine} {new : List Obs}
    (h : SegmentRow s.params.bufN (BufName.targetRx.resolve s.params.simultaneous)
      (BufName.targetTx.resolve s.params.simultaneous) s.eng i e' new)
    (he : t.eng = e' := by
      cases hm : s.params.simultaneous <;> simp [hm, Port.engineWrite, BufName.resolve, State.buf, Engine.buffer])
    (ht : t.trace = s.trace ++ new.map (fun o => (s.sel, o)) := by simp [State.available_eq, ← State.buf_eq])
    (hp : t.params = s.params := by simp) (hs : t.sel = s.sel := by simp) (hq : t.schedule = s.schedule := by simp)
    (ho : t.otherEngine = s.otherEngine := by simp) (hd : t.draws = s.draws := by simp) : s.runsSegment t i :=
  ⟨e', new, h, State.framed_intro hp hs hq ho hd, he, ht⟩

/-- A push with room stores (R144). -/
theorem State.tryPush_of_room {b : BufName} (v : Byte) (h : (s.buf b).isFull s.params.bufN = false) :
    (s.tryPush b v).2 = s.setBuf b ((s.buf b).tryPush s.params.bufN v).2 := by
  simp [State.tryPush, RingBuffer.tryPush_of_room v h]

/-- A pop with bytes unread takes the oldest (R145). -/
theorem State.pop_of_nonempty {b : BufName} (h : (s.buf b).isEmpty = false) :
    s.pop b = (some ((s.buf b).storage.read (s.buf b).tail), s.setBuf b ((s.buf b).pop s.params.bufN).2) := by
  simp [State.pop, RingBuffer.pop_of_nonempty _ h]

@[simp] theorem setAckMatters_buf (s : State) (a : Bool) (n : BufName) :
    (s.setEng { s.eng with ackMatters := a }).buf n = s.buf n := by
  rw [State.buf_eq, State.buf_eq, setEng_eng, setEng_params]
  exact Engine.buffer_congr rfl rfl rfl rfl _

/-! ## The instructions -/

theorem exec_tStop_runsSegment (s : State) (k : Key) :
    ∃ t, exec (.tStop k) s = .next t ∧ s.runsSegment t (.tStop k) := by
  refine ⟨_, rfl, ?_⟩
  rcases (s.writePort .sstatus clearStop).deliverRx_cases .rxStop .endRun with ⟨hbytes, hhandle, e⟩ | ⟨hskip, e⟩ <;>
    rw [e]
  · simp only [State.available_eq, writePort_buf, writePort_params, writePort_eng] at hbytes hhandle
    exact (SegmentRow.stopNotifies hbytes hhandle).runsSegment
  · simp only [State.available_eq, writePort_buf, writePort_params, writePort_eng] at hskip
    exact (SegmentRow.stopDiscards hskip).runsSegment

theorem exec_tAddrR_runsSegment (s : State) (k : Key) :
    ∃ t, exec (.tAddrR k) s = .next t ∧ s.runsSegment t (.tAddrR k) := by
  refine ⟨_, rfl, ?_⟩
  rcases s.latchIncoming.deliverRx_cases .rxAddr .requestPhase with ⟨hbytes, hhandle, e⟩ | ⟨hskip, e⟩ <;>
    rw [e]
  · simp only [State.available_eq, latchIncoming_buf, latchIncoming_params, latchIncoming_eng] at hbytes hhandle
    exact (SegmentRow.readAddressedNotifies hbytes hhandle).runsSegment
  · simp only [State.available_eq, latchIncoming_buf, latchIncoming_params, latchIncoming_eng] at hskip
    rcases (s.latchIncoming.discard .targetRx).requestPhase_cases with ⟨hrequest, e⟩ | ⟨hrequest, e⟩ <;> rw [e] <;>
      simp only [discard_eng, latchIncoming_eng, Engine.setBuffer_onRequest] at hrequest
    · exact (SegmentRow.readAddressedRequests hskip hrequest).runsSegment
    · exact (SegmentRow.readAddressedAcknowledges hskip hrequest).runsSegment

theorem exec_tDataRx_runsSegment (s : State) (k : Key) :
    ∃ t, exec (.tDataRx k) s = .next t ∧ s.runsSegment t (.tDataRx k) := by
  refine ⟨_, rfl, ?_⟩
  split
  case isTrue hfull => exact (SegmentRow.overflows hfull).runsSegment
  case isFalse hroom =>
    rw [Bool.not_eq_true] at hroom
    rw [State.tryPush_of_room _ (by simpa using hroom)]
    exact (SegmentRow.stores hroom).runsSegment

theorem exec_tDataReq_runsSegment (s : State) (k : Key) :
    ∃ t, exec (.tDataReq k) s = .next t ∧ s.runsSegment t (.tDataReq k) := by
  cases hempty : (s.buf .targetTx).isEmpty with
  | true => exact ⟨_, exec_tDataReq_of_isEmpty k hempty, (SegmentRow.sendsNothing hempty).runsSegment⟩
  | false =>
    refine ⟨_, by simp only [exec, execTDataReq, State.pop_of_nonempty, setAckMatters_buf, hempty]; rfl, ?_⟩
    exact (SegmentRow.sends hempty).runsSegment

theorem exec_cbReturn_runsSegment (s : State) :
    ∃ t, exec .cbReturn s = .next t ∧ s.runsSegment t .cbReturn := by
  simp only [exec, execCbReturn]
  split <;> rename_i hcb <;> refine ⟨_, rfl, ?_⟩
  · exact (SegmentRow.returnRefused hcb).runsSegment
  · exact (SegmentRow.returnStops hcb).runsSegment
  · rcases (s.discard .targetRx).requestPhase_cases with ⟨hrequest, e⟩ | ⟨hrequest, e⟩ <;> rw [e] <;>
      simp only [discard_eng, Engine.setBuffer_onRequest] at hrequest
    · exact (SegmentRow.returnRequests hcb hrequest).runsSegment
    · exact (SegmentRow.returnAcknowledges hcb hrequest).runsSegment
  · exact (SegmentRow.returnReplies hcb).runsSegment

/-- A branch, and CB_RETURN, runs a segment by one of its rows. -/
theorem exec_runsSegment (s : State) (hi : isBranch i = true ∨ i = .cbReturn) :
    ∃ t, exec i s = .next t ∧ s.runsSegment t i := by
  cases i with
  | tBuserr k => exact ⟨_, rfl, SegmentRow.busError.runsSegment⟩
  | tStop k => exact exec_tStop_runsSegment s k
  | tAddrW k => exact ⟨_, rfl, SegmentRow.writeAddressed.runsSegment⟩
  | tAddrR k => exact exec_tAddrR_runsSegment s k
  | tDataRx k => exact exec_tDataRx_runsSegment s k
  | tDataReq k => exact exec_tDataReq_runsSegment s k
  | tNack k => exact ⟨_, rfl, SegmentRow.nacked.runsSegment⟩
  | tIllegal k => exact ⟨_, rfl, SegmentRow.illegal.runsSegment⟩
  | cbReturn => exact exec_cbReturn_runsSegment s
  | _ => simp [isBranch, encode] at hi

end

end Sys2Proof.Machine
end

section
/-! PROOFS. The dispatcher's branches (R215 to R223), and what no segment of a run touches (R79, R210): each statement
is read off the rows. -/

namespace Sys2Proof.Machine

section
variable {s t : State} {i : Instr} {n : Nat} {rx tx : BufName} {e e' : Engine} {new : List Obs}

/-! ## Cells -/

theorem Engine.setBuffer_storage {b : BufName} {rb : RingBuffer} (h : rb.storage = (e.buffer b).storage)
    (c : BufName) : ((e.setBuffer b rb).buffer c).storage = (e.buffer c).storage := by
  by_cases hc : c = b
  · subst hc; rw [Engine.buffer_setBuffer_same, h]
  · rw [Engine.buffer_setBuffer_other _ _ _ _ hc]

theorem Engine.setBuffer_discard_storage (e : Engine) (b c : BufName) :
    ((e.setBuffer b (e.buffer b).discard).buffer c).storage = (e.buffer c).storage :=
  Engine.setBuffer_storage (rb := (e.buffer b).discard) rfl c

/-- Storage is written by T_DATA_RX with room only (R220). -/
theorem SegmentRow.storage_eq (h : SegmentRow n rx tx e i e' new)
    (hi : ∀ k, i = .tDataRx k → (e.buffer rx).isFull n = true) (b : BufName) :
    (e'.buffer b).storage = (e.buffer b).storage := by
  cases h with
  | stores hroom => simp [hroom] at hi
  | busError =>
    have hrx := Engine.setBuffer_storage (rb := (e.buffer rx).rewind) rfl
    exact (Engine.setBuffer_storage (rb := (e.buffer tx).rewind) (hrx tx).symm b).trans (hrx b)
  | sends hstaged =>
    exact Engine.setBuffer_storage (by simp [RingBuffer.pop_of_nonempty n hstaged]) b
  | overflows | stopDiscards | returnStops | returnRequests | returnAcknowledges =>
    exact Engine.setBuffer_discard_storage e rx b
  | readAddressedRequests | readAddressedAcknowledges =>
    exact Engine.setBuffer_discard_storage { e with incomingAddress := e.port.sdata, incomingValid := true } rx b
  | nacked => exact Engine.setBuffer_discard_storage e tx b
  | stopNotifies | writeAddressed | readAddressedNotifies | sendsNothing | illegal | returnRefused
  | returnReplies => rfl

theorem RingBuffer.isEmpty_eq_true_iff (rb : RingBuffer) : rb.isEmpty = true ↔ rb.head = rb.tail := by
  simp [RingBuffer.isEmpty]

theorem RingBuffer.isEmpty_eq_false_iff (rb : RingBuffer) : rb.isEmpty = false ↔ rb.head ≠ rb.tail := by
  simp [RingBuffer.isEmpty]

/-- A push with room moves the head and writes the cell there (R144). -/
theorem RingBuffer.tryPush_fields {rb : RingBuffer} (h : rb.wf n = true) (hroom : rb.isFull n = false) (b : Byte) :
    (rb.tryPush n b).2.head = (rb.head + 1) % n ∧ (rb.tryPush n b).2.tail = rb.tail ∧
      (rb.tryPush n b).2.storage.read rb.head = b := by
  obtain ⟨-, -, hstorage⟩ := (rb.wf_iff n).mp h
  rw [RingBuffer.tryPush_of_room b hroom]
  exact ⟨rfl, rfl, Memory.read_write_same n _ _ _ hstorage⟩

/-- A push writes no cell but the one at the head (R144). -/
theorem Engine.setBuffer_tryPush_read {b c : BufName} {v : Byte} {a : Nat} (h : (e.buffer b).wf n = true)
    (hne : ¬(c = b ∧ a = (e.buffer b).head)) :
    ((e.setBuffer b ((e.buffer b).tryPush n v).2).buffer c).storage.read a = (e.buffer c).storage.read a := by
  by_cases hc : c = b
  · subst hc
    obtain ⟨-, -, hstorage⟩ := (RingBuffer.wf_iff n _).mp h
    rw [Engine.buffer_setBuffer_same]
    rcases (e.buffer c).tryPush_cases n v with ⟨_, heq⟩ | ⟨_, heq⟩ <;> rw [heq]
    exact Memory.read_write_other n _ _ _ _ hstorage fun ha => hne ⟨rfl, ha⟩
  · rw [Engine.buffer_setBuffer_other _ _ _ _ hc]

/-! ## What a branch comes to -/

/-- A branch on state `s`: its row, and what it leaves alone. -/
theorem exec_segment (s : State) (hi : isBranch i = true) : ∃ t, exec i s = .next t ∧ s.framed t ∧
    ((∀ k, i = .tDataRx k → (s.buf .targetRx).isFull s.params.bufN = true) → s.sameCells t) ∧ ∃ new,
    SegmentRow s.params.bufN (BufName.targetRx.resolve s.params.simultaneous)
      (BufName.targetTx.resolve s.params.simultaneous) s.eng i t.eng new ∧ s.observed t new := by
  obtain ⟨t, he, e', new, hrow, hframe, rfl, hobs⟩ := exec_runsSegment s (.inl hi)
  exact ⟨t, he, hframe, fun hfull => State.sameCells_of_storage hframe (hrow.storage_eq hfull), new, hrow, hobs⟩

/-! ## The master side -/

/-- With four buffers a segment's engine differs from the one before in the named fields only. -/
theorem SegmentRow.eq_update (h : SegmentRow n .targetRx .targetTx e i e' new) : e' =
    { e with incomingAddress := e'.incomingAddress, incomingValid := e'.incomingValid, ackMatters := e'.ackMatters,
             targetTx := e'.targetTx, targetRx := e'.targetRx, cbState := e'.cbState, lastFault := e'.lastFault,
             port := { e.port with scmd := e'.port.scmd, sstatus := e'.port.sstatus, sdata := e'.port.sdata } } := by
  cases h <;> rfl

end

/-! ## The statements -/

/-- Settles O29: one row, in which the two names stand for one pair of buffers or the other. -/
theorem busErrorResetsTargetBuffers : Obligations.BusErrorResetsTargetBuffers := by
  unfold Obligations.BusErrorResetsTargetBuffers
  intro s k
  obtain ⟨t, he, hframe, hcells, new, hrow, hobs⟩ := exec_segment s (i := .tBuserr k) rfl
  refine ⟨(keySelection k).buserr, t, he, hframe, hcells (by simp), ?_⟩
  generalize t.eng = e' at hrow ⊢
  cases hrow
  exact ⟨by cases s.params.simultaneous <;> rfl, hobs⟩

/-- Settles O30: two rows, a callback called or the bytes discarded. -/
theorem stopDeliversReceivedBytes : Obligations.StopDeliversReceivedBytes := by
  unfold Obligations.StopDeliversReceivedBytes
  intro s k hcb
  obtain ⟨t, he, hframe, hcells, new, hrow, hobs⟩ := exec_segment s (i := .tStop k) rfl
  refine ⟨(keySelection k).stop, t, he, hframe, hcells (by simp), ?_⟩
  generalize t.eng = e' at hrow ⊢
  cases hrow with
  | stopNotifies hbytes hhandle =>
    exact ⟨by simp [clearStop], (if_pos ⟨hbytes, hhandle⟩).mpr ⟨rfl, hobs⟩⟩
  | stopDiscards hskip =>
    refine ⟨by simp [clearStop], (if_neg fun ⟨hb, hh⟩ => hskip.elim hb hh).mpr ⟨?_, hobs⟩⟩
    simp only [Engine.setBuffer_cbState, hcb]
    rfl

/-- Settles O31: one row. -/
theorem addressForWriteIsLatchedAndAcknowledged : Obligations.AddressForWriteIsLatchedAndAcknowledged := by
  unfold Obligations.AddressForWriteIsLatchedAndAcknowledged
  intro s k
  obtain ⟨t, he, hframe, hcells, new, hrow, hobs⟩ := exec_segment s (i := .tAddrW k) rfl
  refine ⟨(keySelection k).addrW, t, he, hframe, hcells (by simp), ?_⟩
  generalize t.eng = e' at hrow ⊢
  cases hrow
  exact ⟨rfl, hobs⟩

/-- Settles O32: three rows, the first of receive callback, request callback and acknowledge. -/
theorem addressForReadNotifiesThenAcknowledges : Obligations.AddressForReadNotifiesThenAcknowledges := by
  unfold Obligations.AddressForReadNotifiesThenAcknowledges
  intro s k hcb
  obtain ⟨t, he, hframe, hcells, new, hrow, hobs⟩ := exec_segment s (i := .tAddrR k) rfl
  refine ⟨(keySelection k).addrR, t, he, hframe, hcells (by simp), ?_⟩
  generalize t.eng = e' at hrow ⊢
  cases hrow with
  | readAddressedNotifies hbytes hhandle => exact (if_pos ⟨hbytes, hhandle⟩).mpr ⟨rfl, hobs⟩
  | readAddressedRequests hskip hrequest =>
    exact (if_neg fun ⟨hb, hh⟩ => hskip.elim hb hh).mpr ((if_pos hrequest).mpr ⟨rfl, hobs⟩)
  | readAddressedAcknowledges hskip hrequest =>
    refine (if_neg fun ⟨hb, hh⟩ => hskip.elim hb hh).mpr ((if_neg (not_not.mpr hrequest)).mpr ⟨?_, hobs⟩)
    simp only [Engine.setBuffer_cbState, hcb]
    rfl

/-- Settles O33: two rows, and the push of the second writes the cell at the head. -/
theorem receivedByteIsStoredOrAllDiscarded : Obligations.ReceivedByteIsStoredOrAllDiscarded := by
  unfold Obligations.ReceivedByteIsStoredOrAllDiscarded
  intro s k hinv
  obtain ⟨-, -, hall⟩ := hinv
  obtain ⟨t, he, hframe, hcells, new, hrow, hobs⟩ := exec_segment s (i := .tDataRx k) rfl
  refine ⟨(keySelection k).dataRx, t, he, hframe, ?_⟩
  have ⟨⟨hparams, hsel, _, hother⟩, _⟩ := hframe
  have hwf : (s.buf .targetRx).wf s.params.bufN = true := Engine.buffer_wf _ (hall s.sel)
  simp only [State.available_eq, State.buf_eq t, hparams]
  generalize heng : t.eng = e' at hrow ⊢
  cases hrow with
  | overflows hfull =>
    refine (if_pos ((RingBuffer.isFull_eq_true_iff _ _).mp hfull)).mpr ⟨rfl, hobs, hcells fun _ _ => hfull, ?_⟩
    exact (congrArg _ (Engine.buffer_setBuffer_same ..)).trans (RingBuffer.available_discard ..)
  | stores hroom =>
    have hne : ¬(s.buf .targetRx).isFull s.params.bufN = true := ne_true_of_eq_false hroom
    refine (if_neg (mt (RingBuffer.isFull_eq_true_iff _ _).mpr hne)).mpr ?_
    have hbuf : t.eng.buffer (BufName.targetRx.resolve s.params.simultaneous) =
        ((s.buf .targetRx).tryPush s.params.bufN s.eng.port.sdata).2 :=
      heng ▸ Engine.buffer_setBuffer_same ..
    obtain ⟨hhead, htail, hcell⟩ := RingBuffer.tryPush_fields hwf hroom s.eng.port.sdata
    rw [← heng, hbuf]
    refine ⟨heng, hhead, htail, hcell, State.sameCellsBut_intro hsel hother fun b a hba => ?_, hobs⟩
    rw [heng]
    exact Engine.setBuffer_tryPush_read hwf hba

/-- Settles O34: two rows, by whether a byte is staged. -/
theorem dataRequestSendsAStagedByte : Obligations.DataRequestSendsAStagedByte := by
  unfold Obligations.DataRequestSendsAStagedByte
  intro s k
  obtain ⟨t, he, hframe, hcells, new, hrow, hobs⟩ := exec_segment s (i := .tDataReq k) rfl
  refine ⟨(keySelection k).dataReq, t, he, hframe, hcells (by simp), ?_⟩
  generalize t.eng = e' at hrow ⊢
  cases hrow with
  | sends hstaged =>
    refine (if_neg ((RingBuffer.isEmpty_eq_false_iff _).mp hstaged)).mpr ⟨?_, hobs⟩
    rw [RingBuffer.pop_of_nonempty _ hstaged]
    rfl
  | sendsNothing hnone => exact (if_pos ((RingBuffer.isEmpty_eq_true_iff _).mp hnone)).mpr ⟨rfl, hobs⟩

/-- Settles O35: one row each, that of T_ILLEGAL being the write of its command. -/
theorem nackAndIllegalEndTheTransaction : Obligations.NackAndIllegalEndTheTransaction := by
  unfold Obligations.NackAndIllegalEndTheTransaction
  intro s k
  refine ⟨(keySelection k).nack, (keySelection k).illegal, ?_, _, rfl, s.targetCommand_issuedTarget .nackWaitStart⟩
  obtain ⟨t, he, hframe, hcells, new, hrow, hobs⟩ := exec_segment s (i := .tNack k) rfl
  refine ⟨t, he, hframe, hcells (by simp), ?_⟩
  generalize t.eng = e' at hrow ⊢
  cases hrow
  exact ⟨rfl, hobs⟩

/-- Settles O52: the engine after a row differs from the one before in target-side fields only. -/
theorem dispatcherNeverTouchesMasterSide : Obligations.DispatcherNeverTouchesMasterSide := by
  unfold Obligations.DispatcherNeverTouchesMasterSide
  intro ins s t hsim hi he
  obtain ⟨t', he', e', new, hrow, -, heng, -⟩ := exec_runsSegment s hi
  cases he.symm.trans he'
  rw [hsim] at hrow
  rw [heng, hrow.eq_update]
  refine ⟨rfl, rfl, rfl, rfl, rfl, rfl, rfl, rfl, rfl, rfl, rfl, rfl, ?_⟩
  simp [Port.get]

end Sys2Proof.Machine
end

section
/-! PROOFS. The sequence of R225: an address, received bytes and a stop, each shown by the peripheral and delivered. -/

namespace Sys2Proof.Machine

section
variable {s t u : State} {i : InstId} {n : Nat} {e e' : Engine} {new : List Obs}

/-! ## Runs and their notifications -/

theorem run_add (M : Host.Core) {s t : M.State} {m : Nat} (n : Nat) (h : M.run m s = .next t) :
    M.run (m + n) s = M.run n t := by
  induction m generalizing s with
  | zero => cases h; rw [Nat.zero_add]
  | succ m ih =>
    rw [Nat.succ_add]
    simp only [Host.Core.run] at h ⊢
    split at h
    · exact ih h
    · cases h
    · cases h

theorem run_succ (M : Host.Core) {s t : M.State} (n : Nat) (h : M.step s = .next t) :
    M.run (n + 1) s = M.run n t := by
  rw [Host.Core.run, h]

/-- `n` steps lead from `s` to `t`, the parameters as they were, and notify `calls`. -/
def State.runsNotifying (s t : State) (n : Nat) (calls : List (InstId × Obs)) : Prop :=
  Host.Core.run Sys2Proof.core n s = .next t ∧ t.params = s.params ∧
    ∃ new, t.trace = s.trace ++ new ∧ new.filter (fun o => o.2.isNotification) = calls

theorem State.runsNotifying.trans {m : Nat} {calls calls' : List (InstId × Obs)} (h : s.runsNotifying t m calls)
    (h' : t.runsNotifying u n calls') : s.runsNotifying u (m + n) (calls ++ calls') := by
  obtain ⟨hrun, hp, new, htrace, hcalls⟩ := h
  obtain ⟨hrun', hp', new', htrace', hcalls'⟩ := h'
  exact ⟨(run_add _ n hrun).trans hrun', hp'.trans hp, new ++ new', by simp [htrace', htrace],
    by simp [hcalls, hcalls']⟩

theorem State.hasInst_congr (hp : t.params = s.params) : t.hasInst i = s.hasInst i := by
  cases i
  · rfl
  · simp [State.hasInst, hp]

/-! ## One event -/

variable {writes : List (PeriphReg × Byte)} {rest : List Stimulus}

theorem step_of_periph (hsched : s.schedule = .periph i writes :: rest) (hi : s.hasInst i = true) :
    step s = .next ((s.taking i rest).periphStep writes) := by
  simp only [step, State.fetch_of_admits hsched (show s.admits (.periph i writes) = true from hi), State.take]
  rfl

section
variable (s : State) (i : InstId) (rest : List Stimulus)

@[simp] theorem taking_schedule : (s.taking i rest).schedule = rest := rfl
@[simp] theorem taking_sel : (s.taking i rest).sel = i := rfl
@[simp] theorem taking_params : (s.taking i rest).params = s.params := rfl
@[simp] theorem taking_trace : (s.taking i rest).trace = s.trace := rfl

end

/-- An admitted event runs a segment on the status found (R210). -/
theorem step_event_segment (hsched : s.schedule = .event i :: rest) (hadm : s.admits (.event i) = true) :
    ∃ t new, step s = .next t ∧ t.schedule = rest ∧ t.params = s.params ∧
      SegmentRow s.params.bufN (BufName.targetRx.resolve s.params.simultaneous)
        (BufName.targetTx.resolve s.params.simultaneous) (s.engineOf i)
        (decodeKey (Key.mk (s.engineOf i).ackMatters (s.engineOf i).port.sstatus)) (t.engineOf i) new ∧
      t.trace = s.trace ++ (Obs.portRead .sstatus (s.engineOf i).port.sstatus :: new).map fun o => (i, o) := by
  obtain ⟨t, hexec, e', new, hrow, ⟨⟨hparams, hsel, hrest, -⟩, -⟩, rfl, hobs⟩ :=
    exec_runsSegment (s.taking i rest).enterEvent (.inl (isBranch_decodeKey (s.taking i rest).dispatchKey))
  simp only [State.enterEvent, noteRead_params, noteRead_sel, noteRead_schedule, noteRead_eng, noteRead_trace,
    taking_params, taking_sel, taking_schedule, taking_eng, taking_trace, State.observed]
    at hparams hsel hrest hrow hobs
  refine ⟨t, new, (step_of_event hsched hadm).trans hexec, hrest, hparams, ?_, ?_⟩
  · have hkey : (s.taking i rest).dispatchKey = Key.mk (s.engineOf i).ackMatters (s.engineOf i).port.sstatus := by
      rw [State.dispatchKey, State.port_eq, taking_eng, Port.get]
    rw [← hkey, show t.engineOf i = t.eng by rw [← engineOf_sel, hsel]]
    exact hrow
  · simpa [Port.get] using hobs

/-- The engine once the peripheral has written its registers (R12). -/
def Engine.shown (e : Engine) (writes : List (PeriphReg × Byte)) : Engine :=
  { e with port := e.port.periphWrites writes }

/-! ## The target between events -/

/-- A target between two events of a message: events are delivered (R296), `received` is unread, `handle` is to be
called. -/
structure Engine.Receiving (p : Params) (handle : Handle) (received : List Byte) (e : Engine) : Prop where
  idle : e.cbState = .none
  enabled : eventsEnabled e.port.sctrla = true
  handle : e.onReceive = handle
  wf : (e.buffer (BufName.targetRx.resolve p.simultaneous)).wf p.bufN = true
  unread : (e.buffer (BufName.targetRx.resolve p.simultaneous)).unread p.bufN = received

variable {p : Params} {handle : Handle} {received : List Byte} {k : Key} {tx : BufName}

/-- The peripheral does not write SCTRLA (R40). -/
theorem Engine.Receiving.shown (h : e.Receiving p handle received) : (e.shown writes).Receiving p handle received := by
  obtain ⟨hidle, hon, hhandle, hwf, hunread⟩ := h
  obtain ⟨-, -, -, -, -, hsctrla, -⟩ := e.port.periphWrites_keeps writes
  exact ⟨hidle, hsctrla ▸ hon, hhandle, hwf, hunread⟩

theorem Engine.Receiving.addressed (h : e.Receiving p handle received)
    (hrow : SegmentRow p.bufN (BufName.targetRx.resolve p.simultaneous) tx e (.tAddrW k) e' new) :
    e'.Receiving p handle received ∧ e'.incomingAddress = e.port.sdata ∧ new.filter Obs.isNotification = [] := by
  obtain ⟨hidle, hon, hhandle, hwf, hunread⟩ := h
  cases hrow
  exact ⟨⟨hidle, hon, hhandle, hwf, hunread⟩, rfl, rfl⟩

/-- With fewer than N-1 bytes received the next is stored behind them (R220). -/
theorem Engine.Receiving.stored (h : e.Receiving p handle received) (hroom : received.length < p.bufN - 1)
    (hrow : SegmentRow p.bufN (BufName.targetRx.resolve p.simultaneous) tx e (.tDataRx k) e' new) :
    e'.Receiving p handle (received ++ [e.port.sdata]) ∧ e'.incomingAddress = e.incomingAddress ∧
      new.filter Obs.isNotification = [] := by
  obtain ⟨hidle, hon, hhandle, hwf, hunread⟩ := h
  rw [← hunread, RingBuffer.length_unread] at hroom
  cases hrow with
  | overflows hfull => simp [RingBuffer.isFull_eq_false hwf hroom] at hfull
  | stores =>
    have hbuf := Engine.buffer_setBuffer_same e (BufName.targetRx.resolve p.simultaneous)
      ((e.buffer (BufName.targetRx.resolve p.simultaneous)).tryPush p.bufN e.port.sdata).2
    refine ⟨⟨?_, ?_, ?_, ?_, ?_⟩, ?_, rfl⟩
    · simpa using hidle
    · exact hon
    · simpa using hhandle
    · exact (congrArg (RingBuffer.wf p.bufN) hbuf).trans (RingBuffer.tryPush_wf _ _ _ hwf)
    · rw [← hunread, ← RingBuffer.unread_tryPush hwf (RingBuffer.tryPush_accepts hwf _ hroom)]
      exact congrArg _ hbuf
    · simp

/-- At the stop the callback is called with the number of bytes received, which it finds unread (R216, R217). -/
theorem Engine.Receiving.stopped (h : e.Receiving p handle received) (hhandle : handle ≠ 0) (hsome : received ≠ [])
    (hrow : SegmentRow p.bufN (BufName.targetRx.resolve p.simultaneous) tx e (.tStop k) e' new) :
    e'.cbState = .rxStop ∧ e'.incomingAddress = e.incomingAddress ∧
      (e'.buffer (BufName.targetRx.resolve p.simultaneous)).unread p.bufN = received ∧
      new.filter Obs.isNotification = [.notifyReceive handle (BitVec.ofNat 8 received.length)] := by
  obtain ⟨-, -, rfl, -, rfl⟩ := h
  cases hrow with
  | stopNotifies =>
    rw [RingBuffer.length_unread]
    exact ⟨rfl, rfl, rfl, rfl⟩
  | stopDiscards hskip =>
    rw [Ne, ← List.length_eq_zero_iff, RingBuffer.length_unread] at hsome
    exact absurd hhandle (by simpa [hsome] using hskip)

/-! ## Runs of the target -/

/-- The peripheral shows an event and it is delivered: two steps, the second a segment of the branch that the status
shown selects, whatever `ack_matters` is (R210). -/
theorem State.run_event {branch : Key → Instr} (st : Byte)
    (hkey : ∀ ack, decodeKey (Key.mk ack st) = branch (Key.mk ack st))
    (hst : ((s.engineOf i).shown writes).port.sstatus = st) (h : (s.engineOf i).Receiving s.params handle received)
    (hi : s.hasInst i = true) (hsched : s.schedule = .periph i writes :: .event i :: rest) :
    ∃ t k new, SegmentRow s.params.bufN (BufName.targetRx.resolve s.params.simultaneous)
        (BufName.targetTx.resolve s.params.simultaneous) ((s.engineOf i).shown writes) (branch k) (t.engineOf i) new ∧
      t.schedule = rest ∧ s.runsNotifying t 2 ((new.filter Obs.isNotification).map fun o => (i, o)) := by
  have hshow := step_of_periph hsched hi
  generalize hu : (s.taking i (.event i :: rest)).periphStep writes = u at hshow
  have hparams : u.params = s.params := by simp [← hu]
  have heng : u.engineOf i = (s.engineOf i).shown writes := by
    have hsel : u.sel = i := by simp [← hu]
    rw [← hsel, engineOf_sel, hsel, ← hu, periphStep_eng, taking_eng, Engine.shown]
  have hadm : u.admits (.event i) = true := by
    obtain ⟨hidle, hon, -⟩ := h.shown (writes := writes)
    simp [State.admits, State.deliverable, State.hasInst_congr hparams, hi, heng, hidle, hon]
  obtain ⟨t, new, hstep, hrest, hparams', hrow, htrace⟩ := step_event_segment (rest := rest) (by simp [← hu]) hadm
  rw [heng, hst, hkey, hparams] at hrow
  rw [show u.trace = s.trace by rw [← hu, periphStep_trace, taking_trace]] at htrace
  have hrun : Host.Core.run Sys2Proof.core 2 s = .next t :=
    (run_succ Sys2Proof.core 1 hshow).trans (run_succ Sys2Proof.core 0 hstep)
  exact ⟨t, _, new, hrow, hrest, hrun, hparams'.trans hparams, _, htrace, List.filter_map ..⟩

/-- An address for a write (R218). -/
theorem State.run_address {a : Byte} (h : (s.engineOf i).Receiving s.params handle received) (hi : s.hasInst i = true)
    (hsched : s.schedule = .periph i [(.sstatus, 0x61), (.sdata, a)] :: .event i :: rest) :
    ∃ t, s.runsNotifying t 2 [] ∧ t.schedule = rest ∧ (t.engineOf i).Receiving s.params handle received ∧
      (t.engineOf i).incomingAddress = a := by
  obtain ⟨t, k, new, hrow, hrest, hrun⟩ := State.run_event (branch := .tAddrW) 0x61 (by decide) rfl h hi hsched
  obtain ⟨h', haddress, hquiet⟩ := h.shown.addressed hrow
  exact ⟨t, by simpa [hquiet] using hrun, hrest, h', haddress⟩

/-- The offers of one received byte (R220). -/
def byteOffers (i : InstId) (b : Byte) : List Stimulus := [.periph i [(.sstatus, 0xA0), (.sdata, b)], .event i]

/-- Received bytes that fit are stored in order (R220). -/
theorem State.run_bytes {bytes : List Byte} : ∀ {s : State} {received : List Byte},
    (s.engineOf i).Receiving s.params handle received → s.hasInst i = true →
    received.length + bytes.length ≤ s.params.bufN - 1 → s.schedule = bytes.flatMap (byteOffers i) ++ rest →
    ∃ t, s.runsNotifying t (2 * bytes.length) [] ∧ t.schedule = rest ∧
      (t.engineOf i).Receiving s.params handle (received ++ bytes) ∧
      (t.engineOf i).incomingAddress = (s.engineOf i).incomingAddress := by
  induction bytes with
  | nil =>
    intro s received h hi hfit hsched
    exact ⟨s, ⟨rfl, rfl, [], by simp, rfl⟩, hsched, by simpa using h, rfl⟩
  | cons b bytes ih =>
    intro s received h hi hfit hsched
    rw [List.length_cons] at hfit
    obtain ⟨t, k, new, hrow, hrest, hrun⟩ := State.run_event (branch := .tDataRx) 0xA0 (by decide) rfl h hi hsched
    obtain ⟨h', haddress, hquiet⟩ := h.shown.stored (by omega) hrow
    have ⟨_, hparams, _⟩ := hrun
    rw [← hparams] at h' hfit
    obtain ⟨u, hrun', hrest', h'', haddress'⟩ := ih h' ((State.hasInst_congr hparams).trans hi)
      (by rw [List.length_append, List.length_singleton]; omega) hrest
    rw [hparams, List.append_assoc, List.singleton_append] at h''
    refine ⟨u, ?_, hrest', h'', haddress'.trans haddress⟩
    rw [List.length_cons, Nat.mul_succ, Nat.add_comm]
    simpa [hquiet] using hrun.trans hrun'

/-- A stop with bytes received and a callback registered (R216, R217). -/
theorem State.run_stop (h : (s.engineOf i).Receiving s.params handle received) (hi : s.hasInst i = true)
    (hhandle : handle ≠ 0) (hsome : received ≠ [])
    (hsched : s.schedule = .periph i [(.sstatus, 0x40)] :: .event i :: rest) :
    ∃ t, s.runsNotifying t 2 [(i, .notifyReceive handle (BitVec.ofNat 8 received.length))] ∧ t.schedule = rest ∧
      (t.engineOf i).cbState = .rxStop ∧ (t.engineOf i).incomingAddress = (s.engineOf i).incomingAddress ∧
      ((t.engineOf i).buffer (BufName.targetRx.resolve s.params.simultaneous)).unread s.params.bufN = received := by
  obtain ⟨t, k, new, hrow, hrest, hrun⟩ := State.run_event (branch := .tStop) 0x40 (by decide) rfl h hi hsched
  obtain ⟨hcb, haddress, hunread, hcalls⟩ := h.shown.stopped hhandle hsome hrow
  exact ⟨t, by simpa [hcalls] using hrun, hrest, hcb, haddress, hunread⟩

theorem State.receiving_of_storageInv (hinv : s.storageInv) (hd : s.deliverable i = true)
    (hempty : ((s.engineOf i).buffer (BufName.targetRx.resolve s.params.simultaneous)).isEmpty = true) :
    (s.engineOf i).Receiving s.params (s.engineOf i).onReceive [] := by
  obtain ⟨-, -, hall⟩ := hinv
  have hwf := Engine.buffer_wf (BufName.targetRx.resolve s.params.simultaneous) (hall i)
  simp only [State.deliverable, Bool.and_eq_true, beq_iff_eq] at hd
  obtain ⟨hidle, hon⟩ := hd
  exact ⟨hidle, hon, rfl, hwf, (RingBuffer.unread_eq_nil_iff hwf).mpr hempty⟩

end

/-- Settles O59: the address is latched, the bytes are stored in order, and the stop calls the callback. -/
theorem threeReceivedBytesNotifyOnce : Obligations.ThreeReceivedBytesNotifyOnce := by
  unfold Obligations.ThreeReceivedBytesNotifyOnce
  intro s i address b1 b2 b3 rest hinv hi hd hroom hhandle hempty hsched
  have h := State.receiving_of_storageInv hinv hd hempty
  obtain ⟨t1, hrun1, hrest1, h1, haddress⟩ := State.run_address h hi hsched
  have ⟨_, hparams1, _⟩ := hrun1
  rw [← hparams1] at h1
  obtain ⟨t2, hrun2, hrest2, h2, haddress2⟩ := State.run_bytes (bytes := [b1, b2, b3]) h1
    ((State.hasInst_congr hparams1).trans hi) (by rw [hparams1]; simp; omega) hrest1
  have ⟨_, hparams2, _⟩ := hrun2
  rw [← hparams2] at h2
  obtain ⟨t3, hrun3, hrest3, hcb, haddress3, hunread⟩ := State.run_stop h2
    ((State.hasInst_congr (hparams2.trans hparams1)).trans hi) hhandle (by simp) hrest2
  obtain ⟨hrun, -, hcalls⟩ := (hrun1.trans hrun2).trans hrun3
  rw [hparams2, hparams1] at hunread
  exact ⟨t3, hrun, hrest3, hcb, haddress3.trans (haddress2.trans haddress), hunread, hcalls⟩

end Sys2Proof.Machine
end

section
/-! PROOFS. The bus session controller (R240 to R244): what its shared operations (the reset of a pair of buffers, the
cycle of a control register, the refusing guard) leave in the state, and the five commands in foreground context. -/

namespace Sys2Proof.Machine

section
variable {s t : State} {i : Instr}

/-! ## The frame -/

/-- A command that draws no value and stores no byte changes only the selected engine, and there no cell. -/
theorem exec_framed_sameCells (he : exec i s = .next t) (hdraws : t.draws = s.draws)
    (hcells : ∀ b, (t.eng.buffer b).storage = (s.eng.buffer b).storage) : s.framed t ∧ s.sameCells t :=
  have hframe : s.framed t := ⟨exec_sameOutside he, hdraws⟩
  ⟨hframe, State.sameCells_of_storage hframe hcells⟩

/-- In foreground context a foreground-only command runs its body (R275). -/
theorem exec_of_foreground {f : State → State} (he : exec i s = .next (s.inForeground f))
    (hcb : s.eng.cbState = .none) : exec i s = .next (f s) :=
  he.trans (congrArg Host.Outcome.next (s.inForeground_run f hcb))

/-! ## Resets of buffers -/

/-- `reset` moves indices and writes no cell (R147). -/
theorem State.rewind_storage (s : State) (n b : BufName) :
    ((s.rewind n).eng.buffer b).storage = (s.eng.buffer b).storage := by
  rw [rewind_eng]
  exact Engine.setBuffer_storage (rb := (s.buf n).rewind) rfl b

theorem State.rewindMaster_eng (s : State) : ((s.rewind .masterTx).rewind .masterRx).eng =
    { s.eng with masterTx := s.eng.masterTx.rewind, masterRx := s.eng.masterRx.rewind } := by
  simp

/-- The target names stand for the master buffers where these are shared (R27). -/
theorem State.rewindTarget_eng (s : State) : ((s.rewind .targetTx).rewind .targetRx).eng =
    if s.params.simultaneous then
      { s.eng with targetTx := s.eng.targetTx.rewind, targetRx := s.eng.targetRx.rewind }
    else { s.eng with masterTx := s.eng.masterTx.rewind, masterRx := s.eng.masterRx.rewind } := by
  cases hsim : s.params.simultaneous <;>
    simp [State.buf_eq, hsim, BufName.resolve, Engine.buffer]

/-! ## Control registers -/

/-- Only SSTATUS does not take the value written. -/
theorem Port.engineWrite_engineWrite_get (p : Port) {r : PortReg} (h : r ≠ .sstatus) (v : Byte) :
    (p.engineWrite r v).engineWrite r (p.get r) = p := by
  cases r with
  | sstatus => exact absurd rfl h
  | _ => rfl

@[simp] theorem cycle_params (s : State) (r : PortReg) : (s.cycle r).params = s.params := by simp [State.cycle]
@[simp] theorem cycle_sel (s : State) (r : PortReg) : (s.cycle r).sel = s.sel := by simp [State.cycle]
@[simp] theorem cycle_draws (s : State) (r : PortReg) : (s.cycle r).draws = s.draws := by simp [State.cycle]
@[simp] theorem cycle_trace (s : State) (r : PortReg) : (s.cycle r).trace =
    s.trace ++ [.portRead r (s.port r), .portWrite r 0x00, .portWrite r (s.port r)].map (fun o => (s.sel, o)) := by
  simp [State.cycle]

/-- A control register switched off and back holds what it held (R244). -/
theorem State.cycle_eng (s : State) {r : PortReg} (h : r ≠ .sstatus) : (s.cycle r).eng = s.eng := by
  simp [State.cycle, Port.engineWrite_engineWrite_get _ h]

theorem busState_forceIdle : busState forceIdle = .idle := rfl

/-- No bus event is delivered with SCTRLA 0 (R296). -/
theorem State.deliverable_of_targetOff (h : s.eng.port.sctrla = 0x00) : s.deliverable s.sel = false := by
  simp [State.deliverable, h, eventsEnabled, targetLogicOn]

/-! ## The two halves of FLUSH -/

/-- The four resets of FLUSH (R244). -/
def State.rewindAll (s : State) : State :=
  (((s.rewind .masterTx).rewind .masterRx).rewind .targetTx).rewind .targetRx

/-- The peripheral cycled off and on by FLUSH, the bus state forced idle where the master logic was on (R244). -/
def State.cyclePeripheral (s : State) : State :=
  if masterLogicOn s.eng.port.mctrla then ((s.cycle .mctrla).cycle .sctrla).writePort .mstatus forceIdle
  else (s.cycle .mctrla).cycle .sctrla

theorem exec_flush_of_foreground (hcb : s.eng.cbState = .none) :
    exec .flush s = .next (s.rewindAll.cyclePeripheral.respond 0) :=
  exec_of_foreground (f := fun s => s.rewindAll.cyclePeripheral.respond 0) rfl hcb

@[simp] theorem rewindAll_sel (s : State) : s.rewindAll.sel = s.sel := by simp [State.rewindAll]
@[simp] theorem rewindAll_draws (s : State) : s.rewindAll.draws = s.draws := by simp [State.rewindAll]
@[simp] theorem rewindAll_trace (s : State) : s.rewindAll.trace = s.trace := by simp [State.rewindAll]

theorem State.rewindAll_storage (s : State) (b : BufName) :
    (s.rewindAll.eng.buffer b).storage = (s.eng.buffer b).storage := by
  simp only [State.rewindAll, State.rewind_storage]

/-- With shared buffers the four resets are two (R27, R244). -/
theorem State.rewindAll_eng (s : State) : s.rewindAll.eng =
    { s.eng with masterTx := s.eng.masterTx.rewind, masterRx := s.eng.masterRx.rewind,
                 targetTx := if s.params.simultaneous then s.eng.targetTx.rewind else s.eng.targetTx,
                 targetRx := if s.params.simultaneous then s.eng.targetRx.rewind else s.eng.targetRx } := by
  rw [State.rewindAll, State.rewindTarget_eng, State.rewindMaster_eng]
  simp only [rewind_params]
  cases s.params.simultaneous <;> rfl

@[simp] theorem cyclePeripheral_sel (s : State) : s.cyclePeripheral.sel = s.sel := by
  unfold State.cyclePeripheral; split <;> simp
@[simp] theorem cyclePeripheral_draws (s : State) : s.cyclePeripheral.draws = s.draws := by
  unfold State.cyclePeripheral; split <;> simp

/-- The control registers are restored, so only MSTATUS can differ (R244). -/
@[simp] theorem cyclePeripheral_eng (s : State) : s.cyclePeripheral.eng = { s.eng with port := { s.eng.port with
    mstatus := if masterLogicOn s.eng.port.mctrla then forceIdle else s.eng.port.mstatus } } := by
  unfold State.cyclePeripheral; split <;> simp [State.cycle_eng, Port.engineWrite, *]

/-- The accesses of the cycle, in order (R244). -/
theorem State.cyclePeripheral_observed (s : State) : s.observed s.cyclePeripheral
    ([.portRead .mctrla s.eng.port.mctrla, .portWrite .mctrla 0x00, .portWrite .mctrla s.eng.port.mctrla,
      .portRead .sctrla s.eng.port.sctrla, .portWrite .sctrla 0x00, .portWrite .sctrla s.eng.port.sctrla] ++
      if masterLogicOn s.eng.port.mctrla then [.portWrite .mstatus forceIdle] else []) := by
  unfold State.cyclePeripheral State.observed; split <;> simp [State.cycle_eng]

/-! ## The enables -/

/-- `(address << 1) | accept_broadcast` (R22). -/
theorem ownAddress_eq (address : Address7) (broadcast : Bool) :
    ownAddress address broadcast = (address.setWidth 8 <<< 1) ||| (if broadcast then 1 else 0) := by
  cases broadcast <;> revert address <;> decide

theorem State.masterGuard_iff (s : State) : s.masterGuard = true ↔ if s.params.simultaneous then
    s.eng.masterEnabled = true else s.eng.masterEnabled = true ∨ s.eng.targetEnabled = true := by
  unfold State.masterGuard; split <;> simp

theorem State.targetGuard_iff (s : State) : s.targetGuard = true ↔ if s.params.simultaneous then
    s.eng.targetEnabled = true else s.eng.masterEnabled = true ∨ s.eng.targetEnabled = true := by
  unfold State.targetGuard; split <;> simp

/-- A guarded-out enable records the condition and responds (R240, R241, R245). -/
theorem exec_guardedOut (he : exec i s = .next ((s.raise .roleAlreadyActive).respond 0)) :
    ∃ t, exec i s = .next t ∧ s.framed t ∧ s.sameCells t ∧
      t.eng = { s.eng with lastFault := .roleAlreadyActive } ∧ s.observed t [.respond 0] := by
  obtain ⟨hframe, hcells⟩ := exec_framed_sameCells he (by simp) fun b => by cases b <;> simp [Engine.buffer]
  exact ⟨_, he, hframe, hcells, by simp, by simp [State.observed]⟩

end

/-! ## The statements -/

/-- Settles O11: guarded out, or the chain of writes after the reset of the pins. -/
theorem enableMasterGuardAndEffect : Obligations.EnableMasterGuardAndEffect := by
  unfold Obligations.EnableMasterGuardAndEffect
  intro s hcb
  simp only [← State.masterGuard_iff]
  have he := exec_of_foreground (i := .enableMaster) rfl hcb
  split
  case isTrue hguard => exact exec_guardedOut (by rw [he, if_pos hguard])
  case isFalse hguard =>
    rw [if_neg hguard] at he
    obtain ⟨hframe, hcells⟩ := exec_framed_sameCells he (by simp) fun b => by cases b <;> simp [Engine.buffer]
    refine ⟨_, he, hframe, hcells, ?_, ?_, ?_⟩
    · simp [Port.engineWrite, masterControlOn]
    · simp [Port.engineWrite, busState_forceIdle]
    · simp [State.observed, masterControlOn, forceIdle]

/-- Settles O12: guarded out, or the chain of writes in the order of R241. -/
theorem enableTargetGuardAndEffect : Obligations.EnableTargetGuardAndEffect := by
  unfold Obligations.EnableTargetGuardAndEffect
  simp only [← State.targetGuard_iff, ← ownAddress_eq]
  intro s address broadcast mask hcb
  have he := exec_of_foreground (i := .enableTarget address broadcast mask) rfl hcb
  split
  case isTrue hguard => exact exec_guardedOut (by rw [he, if_pos hguard])
  case isFalse hguard =>
    rw [if_neg hguard] at he
    obtain ⟨hframe, hcells⟩ := exec_framed_sameCells he (by simp) fun b => by cases b <;> simp [Engine.buffer]
    refine ⟨_, he, hframe, hcells, ?_, ?_⟩
    · simp [Port.engineWrite, targetControlOn]
    · simp [State.observed, Port.engineWrite, targetControlOn]

/-- Settles O13: one write, then the reset of the master buffers. -/
theorem disableMasterEffect : Obligations.DisableMasterEffect := by
  unfold Obligations.DisableMasterEffect
  intro s hcb
  have he := exec_of_foreground (i := .disableMaster) rfl hcb
  obtain ⟨hframe, hcells⟩ := exec_framed_sameCells he (by simp) fun b => by
    simp only [respond_eng, State.rewind_storage, setEng_eng, writePort_eng]; cases b <;> rfl
  refine ⟨_, he, hframe, hcells, ?_, ?_⟩
  · simp only [respond_eng, State.rewindMaster_eng, setEng_eng, writePort_eng]; rfl
  · simp [State.observed]

/-- Settles O14: three writes, then the reset of the target buffers, whichever they are. -/
theorem disableTargetEffect : Obligations.DisableTargetEffect := by
  unfold Obligations.DisableTargetEffect
  intro s hcb
  have he := exec_of_foreground (i := .disableTarget) rfl hcb
  obtain ⟨hframe, hcells⟩ := exec_framed_sameCells he (by simp) fun b => by
    simp only [respond_eng, State.rewind_storage, setEng_eng, writePort_eng]; cases b <;> rfl
  refine ⟨_, he, hframe, hcells, ?_, ?_, ?_⟩
  · simp only [respond_eng, State.rewindTarget_eng, setEng_eng, writePort_eng, setEng_params, writePort_params]; rfl
  · simp [State.observed]
  · rw [← (exec_sameOutside he).sel]
    exact State.deliverable_of_targetOff (by simp [Port.engineWrite])

/-- Settles O15: the resets of both pairs of buffers (the same pair twice where they are shared), then the cycles, which
restore the control registers, and the write of MSTATUS where the master logic was on. -/
theorem flushEffect : Obligations.FlushEffect := by
  unfold Obligations.FlushEffect
  intro s hcb
  have he := exec_flush_of_foreground hcb
  obtain ⟨hframe, hcells⟩ := exec_framed_sameCells he (by simp) fun b => by
    rw [respond_eng, cyclePeripheral_eng, ← s.rewindAll_storage]; cases b <;> rfl
  have hobs := s.rewindAll.cyclePeripheral_observed
  refine ⟨_, he, hframe, hcells, ?_, ?_, ?_⟩
  · simp only [respond_eng, cyclePeripheral_eng, State.rewindAll_eng]
    cases s.params.simultaneous <;> rfl
  · simp only [respond_eng, cyclePeripheral_eng, State.rewindAll_eng, masterLogicOn]
    split
    · exact busState_forceIdle
    · rfl
  · simp only [State.observed, rewindAll_sel, rewindAll_trace, State.rewindAll_eng] at hobs ⊢
    rw [respond_trace, hobs]
    simp [masterLogicOn, forceIdle]

end Sys2Proof.Machine
end

section
/-! PROOFS. The byte-stream commands BEGIN, WRITE, END, REQUEST, AVAILABLE, READ and PEEK (R260 to R268), in foreground
context and in a callback. -/

namespace Sys2Proof.Machine

section
variable {s t : State}

/-! ## Bytes in a row -/

/-- As many bytes are accepted as there is room for, and they are the last of the unread ones (R264). -/
theorem RingBuffer.pushAll_accepts {n : Nat} {bytes : List Byte} : ∀ {rb : RingBuffer}, rb.wf n = true →
    (rb.pushAll n bytes).1 = min bytes.length (n - 1 - rb.available n) ∧
    (rb.pushAll n bytes).2.unread n = rb.unread n ++ bytes.take (n - 1 - rb.available n) := by
  induction bytes with
  | nil => simp [RingBuffer.pushAll]
  | cons b rest ih =>
    intro rb h
    obtain ⟨hh, ht, -⟩ := (rb.wf_iff n).mp h
    have hcount := RingBuffer.available_tryPush h b
    rcases rb.tryPush_cases n b with ⟨hfull, e⟩ | ⟨hroom, e⟩
    · have hnone : n - 1 - rb.available n = 0 := by rw [(rb.isFull_iff n hh ht).mp hfull, Nat.sub_self]
      simp [RingBuffer.pushAll, e, hnone]
    · have hacc : (rb.tryPush n b).1 = true := by rw [e]
      have hless : rb.available n < n - 1 := by
        have hnotFull := mt (rb.isFull_iff n hh ht).mpr (ne_true_of_eq_false hroom)
        have hlt := RingBuffer.available_lt h
        omega
      obtain ⟨hfirst, hbytes⟩ := ih (rb.tryPush_wf n b h)
      rw [hacc, if_pos rfl] at hcount
      have hsucc : n - 1 - rb.available n = n - 1 - (rb.tryPush n b).2.available n + 1 := by omega
      rw [RingBuffer.unread_tryPush h hacc] at hbytes
      refine ⟨?_, ?_⟩
      · rw [hsucc, List.length_cons, Nat.succ_min_succ, ← hfirst]
        simp only [RingBuffer.pushAll, e]
      · rw [hsucc, List.take_succ_cons, RingBuffer.pushAll_cons_of_accepted rest hacc, hbytes, List.append_assoc,
          List.singleton_append]

/-! ## Contexts -/

/-- `TXB` (R262). -/
theorem State.txb_eq (s : State) : s.txb = if s.eng.cbState = .none then .masterTx else .targetTx := by
  cases h : s.eng.cbState <;> simp [State.txb, State.inCallback, h]

/-- `RXB` (R262). -/
theorem State.rxb_eq (s : State) : s.rxb = if s.eng.cbState = .none then .masterRx else .targetRx := by
  cases h : s.eng.cbState <;> simp [State.rxb, State.inCallback, h]

/-! ## The commands -/

/-- `address << 1` (R260). -/
theorem shiftedAddress_eq (a : Address7) : shiftedAddress a = a.setWidth 8 <<< 1 :=
  (ownAddress_eq a false).trans BitVec.or_zero

@[simp] theorem setBuf_buf_same (s : State) (b : BufName) (rb : RingBuffer) : (s.setBuf b rb).buf b = rb := by
  simp [State.buf_eq]

theorem exec_write_of_full (b : Byte) (h : (s.buf s.txb).isFull s.params.bufN = true) :
    exec (.write b) s = .next ((s.raise .localBufferFull).respond 0) := by
  simp [exec, execWrite, State.tryPush, RingBuffer.tryPush, h, boolResponse]

theorem exec_write_of_room (b : Byte) (h : (s.buf s.txb).isFull s.params.bufN = false) :
    exec (.write b) s = .next ((s.setBuf s.txb ((s.buf s.txb).tryPush s.params.bufN b).2).respond 1) := by
  simp [exec, execWrite, State.tryPush, RingBuffer.tryPush_of_room b h, boolResponse]

theorem exec_read_of_empty (h : (s.buf s.rxb).isEmpty = true) : exec .read s = .next (s.respond 0xFFFF) := by
  simp [exec, execRead, State.pop, RingBuffer.pop, h, optionResponse]

theorem exec_read_of_nonempty (h : (s.buf s.rxb).isEmpty = false) :
    exec .read s = .next ((s.setBuf s.rxb { (s.buf s.rxb) with tail := adv s.params.bufN (s.buf s.rxb).tail }).respond
      (byteResponse ((s.buf s.rxb).storage.read (s.buf s.rxb).tail))) := by
  simp [exec, execRead, State.pop_of_nonempty h, RingBuffer.pop_of_nonempty _ h, optionResponse]

/-- A command that comes to a response changes nothing (R102). -/
theorem State.respond_only (s : State) (v : Response) :
    s.framed (s.respond v) ∧ s.sameCells (s.respond v) ∧ (s.respond v).eng = s.eng ∧
      s.observed (s.respond v) [.respond v] :=
  ⟨State.framed_intro (by simp) (by simp) (by simp) (by simp) (by simp),
    State.sameCells_intro (by simp) (by simp) fun _ _ => by simp, respond_eng s v, respond_trace s v⟩

/-- The response of PEEK, its two cases apart (R146, R268). -/
theorem RingBuffer.optionResponse_peek (rb : RingBuffer) : optionResponse rb.peek =
    if rb.head = rb.tail then 0xFFFF else (rb.storage.read rb.tail).setWidth 16 := by
  simp only [RingBuffer.peek, RingBuffer.isEmpty_eq_true_iff]
  split <;> rfl

end

/-! ## The statements -/

/-- Settles O56: each accepted byte takes one place, and the first rejected one finds none. -/
theorem writeManyAcceptsWhatFits : Obligations.WriteManyAcceptsWhatFits := by
  unfold Obligations.WriteManyAcceptsWhatFits
  intro n rb bytes h _
  obtain ⟨hcount, hunread⟩ := RingBuffer.pushAll_accepts (bytes := bytes) h
  exact ⟨hcount, by rw [hunread, List.take_eq_take_min, Nat.min_comm]⟩

/-- Settles O16: the address, then the reset of `master_tx`. -/
theorem beginStoresAddressAndEmptiesMasterTx : Obligations.BeginStoresAddressAndEmptiesMasterTx := by
  unfold Obligations.BeginStoresAddressAndEmptiesMasterTx
  intro s address hcb
  have he := exec_of_foreground (i := .beginTransmission address) rfl hcb
  obtain ⟨hframe, hcells⟩ := exec_framed_sameCells he (by simp) fun b => by
    rw [respond_eng, State.rewind_storage, setEng_eng]; cases b <;> rfl
  refine ⟨_, he, hframe, hcells, ?_, by simp [State.observed]⟩
  rw [respond_eng, rewind_eng, setEng_eng, shiftedAddress_eq]
  simp [RingBuffer.rewind]

/-- Settles O17: a push on the context's buffer, rejected or stored at its head. -/
theorem writeStoresOneByteOrNone : Obligations.WriteStoresOneByteOrNone := by
  unfold Obligations.WriteStoresOneByteOrNone
  intro s byte hinv
  obtain ⟨-, -, hall⟩ := hinv
  simp only [← State.txb_eq, ← RingBuffer.isFull_eq_true_iff]
  have hwf : (s.buf s.txb).wf s.params.bufN = true := Engine.buffer_wf _ (hall s.sel)
  cases hfull : (s.buf s.txb).isFull s.params.bufN with
  | true =>
    have he := exec_write_of_full byte hfull
    obtain ⟨hframe, hcells⟩ := exec_framed_sameCells he (by simp) fun b => by cases b <;> simp [Engine.buffer]
    exact ⟨_, he, hframe, (if_pos rfl).mpr ⟨by simp, by simp [State.observed], hcells⟩⟩
  | false =>
    obtain ⟨hhead, htail, hcell⟩ := RingBuffer.tryPush_fields hwf hfull byte
    refine ⟨_, exec_write_of_room byte hfull, ?_, (if_neg Bool.false_ne_true).mpr ⟨?_, ?_⟩⟩
    · exact State.framed_intro (by simp) (by simp) (by simp) (by simp) (by simp)
    · simp
    · simp only [respond_buf, setBuf_buf_same]
      refine ⟨hhead, htail, hcell, State.sameCellsBut_intro (by simp) (by simp) fun b a hba => ?_, ?_⟩
      · rw [respond_eng, setBuf_eng]
        exact Engine.setBuffer_tryPush_read hwf hba
      · simp [State.observed]

/-- Settles O18: both set the transaction registers, REQUEST after the address and the reset of `master_rx`. -/
theorem endAndRequestStartATransaction : Obligations.EndAndRequestStartATransaction := by
  unfold Obligations.EndAndRequestStartATransaction
  intro s sendStop address count hcb
  have hend := exec_of_foreground (i := .endTransmission sendStop) rfl hcb
  have hrequest := exec_of_foreground (i := .request address count sendStop) rfl hcb
  refine ⟨?_, ?_⟩
  · obtain ⟨hframe, hcells⟩ := exec_framed_sameCells hend (by simp) fun b => by cases b <;> simp [Engine.buffer]
    exact ⟨_, hend, hframe, hcells, by simp [State.observed], by simp⟩
  · obtain ⟨hframe, hcells⟩ := exec_framed_sameCells hrequest (by simp) fun b => by
      cases b <;> simp [Engine.buffer, RingBuffer.rewind]
    refine ⟨_, hrequest, hframe, hcells, by simp [State.observed], ?_⟩
    simp [shiftedAddress_eq, RingBuffer.rewind]

/-- Settles O19: each is one response. -/
theorem availableAndPeekOnlyRespond : Obligations.AvailableAndPeekOnlyRespond := by
  unfold Obligations.AvailableAndPeekOnlyRespond
  intro s
  simp only [← State.rxb_eq, ← RingBuffer.optionResponse_peek]
  exact ⟨⟨_, rfl, s.respond_only _⟩, ⟨_, rfl, s.respond_only _⟩⟩

/-- Settles O20: a pop on the context's buffer, which writes no cell. -/
theorem readTakesTheOldestByte : Obligations.ReadTakesTheOldestByte := by
  unfold Obligations.ReadTakesTheOldestByte
  intro s
  simp only [← State.rxb_eq, ← RingBuffer.isEmpty_eq_true_iff]
  cases hempty : (s.buf s.rxb).isEmpty with
  | true =>
    obtain ⟨hframe, hcells, hresponse⟩ := s.respond_only 0xFFFF
    exact ⟨_, exec_read_of_empty hempty, hframe, hcells, (if_pos rfl).mpr hresponse⟩
  | false =>
    have he := exec_read_of_nonempty hempty
    obtain ⟨hframe, hcells⟩ := exec_framed_sameCells he (by simp) fun b => by
      rw [respond_eng, setBuf_eng]
      exact Engine.setBuffer_storage (by rfl) b
    refine ⟨_, he, hframe, hcells, (if_neg Bool.false_ne_true).mpr ⟨?_, ?_⟩⟩
    · rw [respond_eng, setBuf_eng]; rfl
    · simp [State.observed, byteResponse]

end Sys2Proof.Machine
end

section
/-! PROOFS. The configuration commands GET_INCOMING, ON_RECEIVE and ON_REQUEST (R271 to R273), the pin commands (R274,
R276, R277) and CB_RETURN (R278). -/

namespace Sys2Proof.Machine

section
variable {s : State}

/-! ## Free values -/

/-- A draw moves the counter and no cell (R70). -/
theorem State.sameCells_draw (s : State) (new : List (InstId × Obs)) (n : Nat) :
    s.sameCells { s with trace := new, draws := n } := fun i _ _ => by cases i <;> rfl

theorem exec_getIncoming_of_latched (h : s.eng.incomingValid = true) :
    exec .getIncoming s = .next (s.respond (byteResponse s.eng.incomingAddress)) :=
  congrArg Host.Outcome.next (if_pos h)

/-- Before the first address branch the response is drawn (R271; log entry 5). -/
theorem exec_getIncoming_of_unlatched (h : s.eng.incomingValid = false) : exec .getIncoming s =
    .next { s.respond (byteResponse (Config.anyIncoming s.draws)) with draws := s.draws + 1 } :=
  congrArg Host.Outcome.next (if_neg (ne_true_of_eq_false h))

/-! ## CB_RETURN -/

/-- CB_RETURN on state `s`: its row, and what it leaves alone. -/
theorem exec_cbReturn_segment (s : State) : ∃ t, exec .cbReturn s = .next t ∧ s.framed t ∧ s.sameCells t ∧ ∃ new,
    SegmentRow s.params.bufN (BufName.targetRx.resolve s.params.simultaneous)
      (BufName.targetTx.resolve s.params.simultaneous) s.eng .cbReturn t.eng new ∧ s.observed t new := by
  obtain ⟨t, he, e', new, hrow, hframe, rfl, hobs⟩ := exec_cbReturn_runsSegment s
  exact ⟨t, he, hframe, State.sameCells_of_storage hframe (hrow.storage_eq nofun), new, hrow, hobs⟩

end

/-! ## The statements -/

/-- Settles O23: a response, of the latched byte or of a drawn one. -/
theorem getIncomingRespondsLatchedByte : Obligations.GetIncomingRespondsLatchedByte := by
  unfold Obligations.GetIncomingRespondsLatchedByte
  intro s
  cases h : s.eng.incomingValid with
  | true =>
    obtain ⟨⟨hout, hdraws⟩, hcells, heng, hobs⟩ := s.respond_only (byteResponse s.eng.incomingAddress)
    exact ⟨_, exec_getIncoming_of_latched h, hout, hcells, heng, (if_pos rfl).mpr ⟨hobs, hdraws⟩⟩
  | false =>
    have he := exec_getIncoming_of_unlatched h
    exact ⟨_, he, exec_sameOutside he, s.sameCells_draw _ _, rfl,
      (if_neg Bool.false_ne_true).mpr ⟨Config.anyIncoming s.draws, rfl⟩⟩

/-- Settles O24: one field and one response each. -/
theorem registrationReplacesTheHandle : Obligations.RegistrationReplacesTheHandle := by
  unfold Obligations.RegistrationReplacesTheHandle
  intro s handle hcb
  have hreceive := exec_of_foreground (i := .onReceive handle) rfl hcb
  have hrequest := exec_of_foreground (i := .onRequest handle) rfl hcb
  refine ⟨?_, ?_⟩
  · obtain ⟨hframe, hcells⟩ := exec_framed_sameCells hreceive (by simp) fun b => by cases b <;> simp [Engine.buffer]
    exact ⟨_, hreceive, hframe, hcells, by simp, by simp [State.observed]⟩
  · obtain ⟨hframe, hcells⟩ := exec_framed_sameCells hrequest (by simp) fun b => by cases b <;> simp [Engine.buffer]
    exact ⟨_, hrequest, hframe, hcells, by simp, by simp [State.observed]⟩

/-- Settles O27: the call and the response are observed, and the answer of SELECT_PINS is drawn. -/
theorem pinCallsAreForwarded : Obligations.PinCallsAreForwarded := by
  unfold Obligations.PinCallsAreForwarded
  intro s sda scl pinSet hcb
  have hselect := exec_of_foreground (i := .selectPins sda scl) rfl hcb
  have hswap := exec_of_foreground (i := .swapPins pinSet) rfl hcb
  have hpullups := exec_of_foreground (i := .pullups) rfl hcb
  refine ⟨?_, ?_, ?_⟩
  · refine ⟨_, hselect, exec_sameOutside hselect, s.sameCells_draw _ _, rfl,
      Config.selectPinsAnswer s.draws sda scl, ?_⟩
    simp [State.observed, State.respond, State.emit, boolResponse]
  · obtain ⟨hframe, hcells⟩ := exec_framed_sameCells hswap (by simp) fun b => by simp
    exact ⟨_, hswap, hframe, hcells, by simp, by simp [State.observed]⟩
  · obtain ⟨hframe, hcells⟩ := exec_framed_sameCells hpullups (by simp) fun b => by simp
    exact ⟨_, hpullups, hframe, hcells, by simp, by simp [State.observed]⟩

/-- Settles O28: the refusal, and four rows told apart by the callback state and the handle. -/
theorem callbackReturnResumesTheRun : Obligations.CallbackReturnResumesTheRun := by
  unfold Obligations.CallbackReturnResumesTheRun
  refine fun s => ⟨fun hcb => ?_, fun hcb => ?_⟩
  · exact ⟨_, by simp only [exec, execCbReturn, hcb], s.refuse_refusedWith .wrongContext⟩
  · obtain ⟨t, he, hframe, hcells, new, hrow, hobs⟩ := exec_cbReturn_segment s
    refine ⟨t, he, hframe, hcells, ?_⟩
    generalize t.eng = e' at hrow ⊢
    cases hrow with
    | returnRefused hnone => exact absurd hnone hcb
    | returnStops hstop =>
      simp only [hstop, reduceCtorEq, forall_const, false_implies, and_true]
      exact ⟨rfl, hobs⟩
    | returnRequests haddr hrequest =>
      simp only [haddr, hrequest, ne_eq, not_false_eq_true, reduceCtorEq, forall_const, false_implies, true_and,
        and_true]
      exact ⟨rfl, hobs⟩
    | returnAcknowledges haddr hrequest =>
      simp only [haddr, hrequest, ne_eq, not_true_eq_false, reduceCtorEq, forall_const, false_implies, true_and,
        and_true]
      exact ⟨rfl, hobs⟩
    | returnReplies hreq =>
      simp only [hreq, reduceCtorEq, forall_const, false_implies, true_and]
      exact ⟨rfl, hobs⟩

end Sys2Proof.Machine
end

section
/-! PROOFS. The user code of a callback runs to its CB_RETURN (R35, R275, R278): while it runs its instance takes no
offer but its own commands and the peripheral's steps, each command is answered once, and no step of another instance
is observed at it. -/

namespace Sys2Proof.Machine

section
variable {s t u : State} {i : InstId} {x : Stimulus} {rest offers : List Stimulus} {m n : Nat}

/-! ## Steps -/

/-- Every instruction has a next state (R321). -/
theorem exec_next (ins : Instr) (s : State) : ∃ t, exec ins s = .next t := by
  cases ins with
  | cbReturn => exact (exec_cbReturn_runsSegment s).imp fun _ h => h.1
  | tDataReq k => exact (exec_tDataReq_runsSegment s k).imp fun _ h => h.1
  | _ => exact ⟨_, rfl⟩

theorem step_next (s : State) : ∃ t, step s = .next t := by
  cases h : s.fetch with
  | run ins u => simpa only [step, h] using exec_next ins u
  | done u => exact ⟨u, by simp only [step, h]⟩

/-- From `s` to `t` only the selected instance moved, and what was observed was observed at it. -/
def State.observes (s t : State) : Prop := s.sameOutside t ∧ ∃ new, s.observed t new

/-- An operation on the selected instance that observes `new`. -/
theorem State.observes.step (h : s.observes t) (new : List Obs)
    (htrace : u.trace = t.trace ++ new.map (fun o => (t.sel, o)) := by simp) (hp : u.params = t.params := by simp)
    (hs : u.sel = t.sel := by simp) (hq : u.schedule = t.schedule := by simp)
    (ho : u.otherEngine = t.otherEngine := by simp) : s.observes u := by
  obtain ⟨hout, old, hold⟩ := h
  exact ⟨hout.trans ⟨hp, hs, hq, ho⟩, old ++ new, hold.trans hout.sel htrace⟩

theorem State.observes.refl (s : State) : s.observes s := ⟨.refl s, [], by simp [State.observed]⟩

theorem observes_kept (s : State) : KeptBySession s.observes where
  emit o h := h.step [o]
  draw _ h := h
  raise _ h := h.step []
  transaction _ _ _ _ _ h := h.step []
  txnAddress _ h := h.step []
  incoming _ h := h.step []
  writeData r v _ h := h.step [.portWrite r v]
  masterCommand c h := h.step [.portWrite .mcmd c.code]
  targetCommand c h := h.step [.portWrite .scmd c.code]
  periphStep _ h := h.step []
  setBuf _ _ _ h := h.step []
  session _ _ _ _ _ _ h := h.step []
  writePort r v h := h.step [.portWrite r v]

theorem exec_observes {ins : Instr} (h : s.observes t) (he : exec ins t = .next u) : s.observes u :=
  (observes_kept s).keeps_exec h (fun _ _ => h.step []) (fun _ _ => h.step []) he

/-- A step drops its offer, or takes it: then it moves the addressed instance only, and is observed there (R318). -/
theorem step_observes (hsched : s.schedule = x :: rest) (hstep : step s = .next t) :
    t = { s with schedule := rest } ∨ (s.taking x.inst rest).observes t := by
  have hK := observes_kept (s.taking x.inst rest)
  have hrefl := State.observes.refl (s.taking x.inst rest)
  cases step_cases hstep with
  | waits hnil ht => simp [hsched] at hnil
  | drops y rest' hs hadm ht => cases hsched.symm.trans hs; exact .inl ht
  | refuses j w r rest' hs hadm hdec ht => cases hsched.symm.trans hs; exact .inr (ht ▸ hK.refuse r hrefl)
  | command j w ins rest' hs hadm hdec he => cases hsched.symm.trans hs; exact .inr (exec_observes hrefl he)
  | engine j rest' hs hadm ht => cases hsched.symm.trans hs; exact .inr (ht ▸ hK.engineStep hrefl)
  | event j rest' hs hadm he =>
    cases hsched.symm.trans hs; exact .inr (exec_observes (hK.noteRead .sstatus hrefl) he)
  | periph j ws rest' hs hadm ht => cases hsched.symm.trans hs; exact .inr (ht ▸ hK.periphStep ws hrefl)

/-! ## Answers -/

/-- From `s` to `t` instance `i` gave `n` responses and no refusal. -/
def State.answered (i : InstId) (n : Nat) (s t : State) : Prop :=
  ∃ new, t.trace = s.trace ++ new ∧ (new.filter (fun o => o.1 == i && o.2.isResponse)).length = n ∧
    new.all (fun o => o.1 != i || !o.2.isRefusal) = true

theorem State.answered.trans (h : s.answered i m t) (h' : t.answered i n u) : s.answered i (m + n) u := by
  obtain ⟨new, htrace, hcount, hall⟩ := h
  obtain ⟨new', htrace', hcount', hall'⟩ := h'
  refine ⟨new ++ new', by rw [htrace', htrace, List.append_assoc], ?_, by rw [List.all_append, hall, hall']; rfl⟩
  rw [List.filter_append, List.length_append, hcount, hcount']

/-- Observations at another instance answer nothing. -/
theorem State.answered_of_other {j : InstId} {new : List Obs} (hji : j ≠ i)
    (htrace : t.trace = s.trace ++ new.map (fun o => (j, o))) : s.answered i 0 t := by
  refine ⟨_, htrace, ?_, ?_⟩
  · simp [List.filter_map, Function.comp_def, hji]
  · simp [hji]

/-- Observations that are neither responses nor refusals answer nothing. -/
theorem State.answered_of_quiet {j : InstId} {new : List Obs}
    (hquiet : ∀ o ∈ new, o.isResponse = false ∧ o.isRefusal = false)
    (htrace : t.trace = s.trace ++ new.map (fun o => (j, o))) : s.answered i 0 t := by
  refine ⟨_, htrace, ?_, ?_⟩
  · simpa [List.filter_map, Function.comp_def] using fun o ho _ => (hquiet o ho).1
  · simpa using fun o ho => .inr (hquiet o ho).2

/-- The callback of instance `i` runs on from `s` to `t`, `n` commands of its user code answered. -/
structure State.callbackRunsOn (i : InstId) (n : Nat) (s t : State) : Prop where
  params : t.params = s.params
  cbState : (t.engineOf i).cbState = (s.engineOf i).cbState
  onRequest : (t.engineOf i).onRequest = (s.engineOf i).onRequest
  answered : s.answered i n t

theorem State.callbackRunsOn.trans (h : s.callbackRunsOn i m t) (h' : t.callbackRunsOn i n u) :
    s.callbackRunsOn i (m + n) u :=
  ⟨h'.params.trans h.params, h'.cbState.trans h.cbState, h'.onRequest.trans h.onRequest, h.answered.trans h'.answered⟩

theorem State.callbackRunsOn_of_dropped (s : State) (i : InstId) (rest : List Stimulus) :
    s.callbackRunsOn i 0 { s with schedule := rest } :=
  ⟨rfl, by cases i <;> rfl, by cases i <;> rfl, [], (List.append_nil _).symm, rfl, rfl⟩

/-! ## The commands of user code -/

/-- Quiet operations keep the callback state and the request handle. -/
theorem callback_kept (c : CbState) (h : Handle) :
    KeptByQuiet (fun s => s.eng.cbState = c ∧ s.eng.onRequest = h) where
  emit _ h := h
  draw _ h := h
  raise _ h := by simpa using h
  transaction _ _ _ _ _ h := by simpa using h
  txnAddress _ h := by simpa using h
  incoming _ h := by simpa using h
  writeData _ _ _ h := by simpa using h
  masterCommand _ h := by simpa using h
  targetCommand _ h := by simpa using h
  periphStep _ h := by simpa using h
  setBuf _ _ _ h := by simpa using h

theorem isQuiet_callbackCommand (c : CallbackCommand) : isQuiet c.instr = true := by
  cases c <;> rfl

@[simp] theorem pop_sel (s : State) (b : BufName) : (s.pop b).2.sel = s.sel :=
  State.pop_elim (P := fun t => t.sel = s.sel) rfl (by simp)

/-- A command of user code comes to one response, in any context (R261 to R271). -/
theorem exec_callbackCommand_responds (c : CallbackCommand) (s : State) :
    ∃ t v, exec c.instr s = .next t ∧ s.observed t [.respond v] := by
  cases c with
  | write b => exact ⟨_, _, rfl, by rw [State.observed, respond_trace, tryPush_trace, tryPush_sel]; rfl⟩
  | available | peek => exact ⟨_, _, rfl, respond_trace ..⟩
  | read => exact ⟨_, _, rfl, by rw [State.observed, respond_trace, pop_trace, pop_sel]; rfl⟩
  | getIncoming =>
    obtain ⟨t, he, htrace⟩ := exec_getIncoming_visible s none
    exact ⟨t, _, he, htrace⟩

/-- The handling of an offer to instance `i` itself, by quiet operations. -/
theorem State.callbackRunsOn_of_taking (hout : (s.taking i rest).sameOutside t)
    (hkept : t.eng.cbState = (s.taking i rest).eng.cbState ∧ t.eng.onRequest = (s.taking i rest).eng.onRequest)
    (hanswered : s.answered i n t) : s.callbackRunsOn i n t := by
  have heng : t.engineOf i = t.eng := by rw [← engineOf_sel, hout.sel]; rfl
  rw [taking_eng] at hkept
  exact ⟨hout.params, heng ▸ hkept.1, heng ▸ hkept.2, hanswered⟩

/-- A command of user code is admitted and answered (R78, R275). -/
theorem step_callbackCommand (c : CallbackCommand) (hi : s.hasInst i = true) (hcb : (s.engineOf i).cbState ≠ .none)
    (hsched : s.schedule = .command i (hostWord c.instr) :: rest) :
    ∃ t, step s = .next t ∧ t.schedule = rest ∧ s.callbackRunsOn i 1 t := by
  have hadm : s.admits (.command i (hostWord c.instr)) = true := by simp [State.admits, hi, hcb]
  obtain ⟨t, v, he, htrace⟩ := exec_callbackCommand_responds c (s.taking i rest)
  have hout := exec_sameOutside he
  have ⟨_, _, hrest, _⟩ := hout
  refine ⟨t, (step_of_command hsched hadm (decodeCommand_of_decode (decode_hostWord c))).trans he, hrest,
    State.callbackRunsOn_of_taking hout ((callback_kept _ _).keeps_exec (isQuiet_callbackCommand c) ⟨rfl, rfl⟩ he) ?_⟩
  exact ⟨_, htrace, by simp [Obs.isResponse], by simp [Obs.isRefusal]⟩

theorem step_periph_runsOn {ws : List (PeriphReg × Byte)} (hi : s.hasInst i = true)
    (hsched : s.schedule = .periph i ws :: rest) :
    ∃ t, step s = .next t ∧ t.schedule = rest ∧ s.callbackRunsOn i 0 t := by
  refine ⟨_, step_of_periph hsched hi, by simp, ?_⟩
  exact State.callbackRunsOn_of_taking ((sameOutside_kept _).periphStep ws (.refl _))
    ((callback_kept _ _).periphStep ws ⟨rfl, rfl⟩) ⟨[], by simp, rfl, rfl⟩

/-! ## Offers while a callback runs -/

theorem commandsFor_of_inst_ne (h : x.inst ≠ i) : commandsFor i [x] = [] := by
  cases x with
  | command j w => simp [commandsFor, show j ≠ i from h]
  | _ => rfl

theorem mem_of_mem_commandsFor {w : CommandWord} (h : w ∈ commandsFor i offers) : .command i w ∈ offers := by
  obtain ⟨x, hx, hword⟩ := List.mem_filterMap.mp h
  cases x with
  | command j v =>
    obtain ⟨rfl, rfl⟩ : j = i ∧ v = w := by simpa using hword
    exact hx
  | _ => cases hword

/-- The offers of other agents leave a running callback alone (R78, R296, R318). -/
theorem step_other_runsOn (hx : x.inst ≠ i) (hsched : s.schedule = x :: rest) :
    ∃ t, step s = .next t ∧ t.schedule = rest ∧ s.callbackRunsOn i 0 t := by
  obtain ⟨t, hstep⟩ := step_next s
  refine ⟨t, hstep, ?_⟩
  rcases step_observes hsched hstep with rfl | ⟨hout, new, hobs⟩
  · exact ⟨rfl, s.callbackRunsOn_of_dropped i rest⟩
  · have heng : t.engineOf i = s.engineOf i := (hout.engineOf_eq (Ne.symm hx)).trans (taking_engineOf ..)
    have ⟨hparams, _, hrest, _⟩ := hout
    exact ⟨hrest, hparams, by rw [heng], by rw [heng], State.answered_of_other hx hobs⟩

/-- An offer while the callback of instance `i` runs: a command of its user code is answered, and any other agent's
offer leaves the callback as it is. -/
theorem step_inCallback (hi : s.hasInst i = true) (hcb : (s.engineOf i).cbState ≠ .none)
    (hsched : s.schedule = x :: rest) (hcode : ∀ w ∈ commandsFor i [x], ∃ c : CallbackCommand, hostWord c.instr = w) :
    ∃ t, step s = .next t ∧ t.schedule = rest ∧ s.callbackRunsOn i (commandsFor i [x]).length t := by
  by_cases hx : x.inst = i
  · subst hx
    cases x with
    | command i w =>
      obtain ⟨c, rfl⟩ := hcode w (by simp [Stimulus.inst])
      simpa [Stimulus.inst] using step_callbackCommand c hi hcb hsched
    | engine i =>
      have hheld := State.admits_engine_of_held (i := i) (State.foregroundFree_eq_false hi hcb)
      exact ⟨_, step_of_not_admits hsched hheld, rfl, s.callbackRunsOn_of_dropped i rest⟩
    | event i =>
      have hheld := State.admits_event_of_callback hcb
      exact ⟨_, step_of_not_admits hsched hheld, rfl, s.callbackRunsOn_of_dropped i rest⟩
    | periph i ws => exact step_periph_runsOn hi hsched
  · rw [commandsFor_of_inst_ne hx]
    exact step_other_runsOn hx hsched

/-- Offers whose commands for instance `i` are user code's. -/
theorem State.run_inCallback : ∀ {s : State}, s.hasInst i = true → (s.engineOf i).cbState ≠ .none →
    s.schedule = offers ++ rest → (∀ w ∈ commandsFor i offers, ∃ c : CallbackCommand, hostWord c.instr = w) →
    ∃ t, Host.Core.run Sys2Proof.core offers.length s = .next t ∧ t.schedule = rest ∧
      s.callbackRunsOn i (commandsFor i offers).length t := by
  induction offers with
  | nil => exact fun {s} _ _ hsched _ => ⟨s, rfl, hsched, rfl, rfl, rfl, [], (List.append_nil _).symm, rfl, rfl⟩
  | cons x offers ih =>
    intro s hi hcb hsched hcode
    have hcommands : commandsFor i (x :: offers) = commandsFor i [x] ++ commandsFor i offers :=
      commandsFor_append i [x] offers
    simp only [hcommands, List.forall_mem_append] at hcode
    obtain ⟨hfirst, hothers⟩ := hcode
    obtain ⟨t, hstep, hrest, hon⟩ := step_inCallback hi hcb hsched hfirst
    obtain ⟨u, hrun, hrest', hon'⟩ := ih ((State.hasInst_congr hon.params).trans hi) (hon.cbState ▸ hcb) hrest hothers
    refine ⟨u, (run_succ Sys2Proof.core offers.length hstep).trans hrun, hrest', ?_⟩
    rw [hcommands, List.length_append]
    exact hon.trans hon'

/-! ## The return -/

/-- The segment of CB_RETURN in a callback ends the run, or asks for the reply (R278). -/
theorem SegmentRow.returns {rx tx : BufName} {e e' : Engine} {new : List Obs}
    (h : SegmentRow n rx tx e .cbReturn e' new) (hcb : e.cbState ≠ .none) :
    e'.cbState = (if e.cbState = .rxAddr ∧ e.onRequest ≠ 0 then .req else .none) ∧
    (e.cbState = .req ∨ (e.cbState = .rxAddr ∧ e.onRequest = 0) → e'.port.scmd = 0x03) ∧
    ∀ o ∈ new, o.isResponse = false ∧ o.isRefusal = false := by
  cases h with
  | returnRefused hnone => exact absurd hnone hcb
  | returnStops hstop => simp [hstop]
  | returnRequests haddr hrequest =>
    exact ⟨(if_pos ⟨haddr, hrequest⟩).symm,
      fun h => h.elim (fun hreq => nomatch haddr.symm.trans hreq) fun hnone => absurd hnone.2 hrequest,
      by simp [Obs.isResponse, Obs.isRefusal]⟩
  | returnAcknowledges haddr hrequest =>
    simp [haddr, hrequest, TargetCommand.code, Obs.isResponse, Obs.isRefusal]
  | returnReplies hreq => simp [hreq, TargetCommand.code, Obs.isResponse, Obs.isRefusal]

/-- The step of CB_RETURN in a callback. -/
theorem step_callbackReturn (hi : s.hasInst i = true) (hcb : (s.engineOf i).cbState ≠ .none)
    (hsched : s.schedule = .command i (hostWord .cbReturn) :: rest) :
    ∃ t, step s = .next t ∧ t.schedule = rest ∧
      (t.engineOf i).cbState =
        (if (s.engineOf i).cbState = .rxAddr ∧ (s.engineOf i).onRequest ≠ 0 then .req else .none) ∧
      ((s.engineOf i).cbState = .req ∨ ((s.engineOf i).cbState = .rxAddr ∧ (s.engineOf i).onRequest = 0) →
        (t.engineOf i).port.scmd = 0x03) ∧ s.answered i 0 t := by
  have hadm : s.admits (.command i (hostWord .cbReturn)) = true := by simp [State.admits, hi, hcb]
  obtain ⟨t, he, ⟨⟨_, hsel, hrest, _⟩, _⟩, _, new, hrow, htrace⟩ := exec_cbReturn_segment (s.taking i rest)
  have heng : t.engineOf i = t.eng := by rw [← engineOf_sel, hsel]; rfl
  rw [taking_eng] at hrow
  obtain ⟨hstate, hscmd, hquiet⟩ := hrow.returns hcb
  refine ⟨t, (step_of_command hsched hadm (decodeCommand_of_decode decode_hostWord_cbReturn)).trans he, hrest,
    heng ▸ hstate, heng ▸ hscmd, State.answered_of_quiet hquiet htrace⟩

/-! ## The premise -/

/-- What stands before the first of an element. -/
theorem eq_of_append_cons_eq {α : Type} [DecidableEq α] {a : α} {xs ys xs' ys' : List α} (hx : a ∉ xs) (hy : a ∉ ys)
    (h : xs ++ a :: xs' = ys ++ a :: ys') : xs = ys := by
  have hbefore := congrArg (List.takeWhile (· ≠ a)) h
  rw [List.takeWhile_append_of_pos fun b hb => decide_eq_true (ne_of_mem_of_not_mem hb hx),
    List.takeWhile_append_of_pos fun b hb => decide_eq_true (ne_of_mem_of_not_mem hb hy)] at hbefore
  simpa using hbefore

/-- The commands offered before the first CB_RETURN are the user code's (R35, R275). -/
theorem commandsFor_of_calls {commands : List CallbackCommand}
    (hcalls : callbackWords commands <+: commandsFor i (offers ++ .command i (hostWord .cbReturn) :: rest))
    (hno : .command i (hostWord .cbReturn) ∉ offers) :
    commandsFor i offers = commands.map fun c => hostWord c.instr := by
  obtain ⟨later, heq⟩ := hcalls
  rw [commandsFor_append, commandsFor_command, callbackWords, List.append_assoc, List.singleton_append] at heq
  refine (eq_of_append_cons_eq ?_ ?_ heq).symm
  · simp only [List.mem_map, not_exists, not_and]
    exact fun c _ => hostWord_ne_cbReturn c
  · exact fun hmem => hno (mem_of_mem_commandsFor hmem)

end

/-! ## The statement -/

/-- Settles O60: the offers before CB_RETURN are the user code's commands, which are answered, and other agents', which
leave the callback alone; then CB_RETURN runs the row of the callback state. -/
theorem callbackCodeRunsToItsReturn : Obligations.CallbackCodeRunsToItsReturn := by
  unfold Obligations.CallbackCodeRunsToItsReturn
  intro code s i handle argument offers rest hi hcalls hcalled hsched hno
  have hcb := State.called_cbState hcalled
  have hcommands := commandsFor_of_calls (hsched ▸ hcalls i handle argument hcalled) hno
  obtain ⟨t, hrun, hrest, hon⟩ := State.run_inCallback hi hcb hsched (by simp [hcommands])
  obtain ⟨u, hstep, hrest', hstate, hscmd, hquiet⟩ :=
    step_callbackReturn ((State.hasInst_congr hon.params).trans hi) (hon.cbState ▸ hcb) hrest
  rw [hon.cbState, hon.onRequest] at hstate hscmd
  have hall := hon.answered.trans hquiet
  rw [hcommands, List.length_map] at hall
  exact ⟨u, (run_add _ 1 hrun).trans (run_succ Sys2Proof.core 0 hstep), hrest', hstate, hscmd, hall⟩

end Sys2Proof.Machine
end

section
/-! PROOFS. The exceptions of the machine: none is fatal (R321), a refusal stays on record (R298), and no step reaches
into the other instance (R318). -/

namespace Sys2Proof.Machine

section
variable {s t : State} {x : Stimulus} {rest : List Stimulus} {new : List (InstId × Obs)}

/-! ## The trace only grows (R298, R361) -/

theorem step_extends_trace (hstep : step s = .next t) : ∃ new, t.trace = s.trace ++ new :=
  (step_issues hstep).imp fun _ h => h.1

theorem State.refusalFree_of_trace_append (htrace : t.trace = s.trace ++ new) :
    t.refusalFree = (s.refusalFree && new.all fun o => !o.2.isRefusal) := by
  simp only [State.refusalFree, htrace, List.all_append]

/-! ## Instances share no state (R318) -/

/-- A dropped offer moves no instance, and one taken moves the addressed instance only. -/
theorem step_keeps_params_and_others (hsched : s.schedule = x :: rest) (hstep : step s = .next t) :
    t.params = s.params ∧ ∀ i, i ≠ x.inst → t.engineOf i = s.engineOf i := by
  rcases step_observes hsched hstep with rfl | ⟨hout, -⟩
  · exact ⟨rfl, fun i _ => by cases i <;> rfl⟩
  · refine ⟨hout.params, fun i hi => ?_⟩
    calc t.engineOf i = (s.taking x.inst rest).engineOf i := hout.engineOf_eq hi
      _ = s.engineOf i := taking_engineOf ..

end

/-! ## The statements -/

/-- Settles O50: a step drops its offer or runs it on the addressed instance, outside which nothing moves. -/
theorem instancesShareNoState : Obligations.InstancesShareNoState := by
  unfold Obligations.InstancesShareNoState
  exact fun _ _ _ _ hsched hstep => step_keeps_params_and_others hsched hstep

/-- Settles O51: the trace before is a prefix of the trace after, so a refusal in it is still there. -/
theorem everyStepExtendsTheTrace : Obligations.EveryStepExtendsTheTrace := by
  unfold Obligations.EveryStepExtendsTheTrace
  intro s t hstep
  obtain ⟨new, htrace⟩ := step_extends_trace hstep
  refine ⟨⟨new, htrace⟩, fun hrefused => ?_⟩
  rw [State.refusalFree_of_trace_append htrace, hrefused, Bool.false_and]

/-- Settles O6: an offer either runs an instruction, each of which answers a next state, or is done at once. -/
theorem everyStepAnswersANextState : Obligations.EveryStepAnswersANextState := by
  unfold Obligations.EveryStepAnswersANextState
  exact step_next

end Sys2Proof.Machine
end

section
/-! PROOFS. The decoder and the encoder are each other's inverse, space by space (R100, R101, R110, R120, R121): a word
decodes to an instruction exactly when the instruction is well formed and the word is its encoding. -/

namespace Sys2Proof

/-! ## Masks, field by field -/

theorem append_eq_zero_iff {m n : Nat} (hi : BitVec m) (lo : BitVec n) : hi ++ lo = 0 ↔ hi = 0 ∧ lo = 0 := by
  constructor
  · intro h
    exact ⟨by simpa [h] using (extract_append_high hi lo).symm, by simpa [h] using (extract_append_low hi lo).symm⟩
  · rintro ⟨rfl, rfl⟩
    exact BitVec.zero_append_zero

/-- A mask tests the lowest field and the fields above it apart. -/
theorem and_append_eq_zero_iff {m n : Nat} (arg : BitVec (m + n)) (mask : BitVec m) (mask' : BitVec n) :
    arg &&& (mask ++ mask') = 0 ↔
      ∃ lo : BitVec n, lo &&& mask' = 0 ∧ ∃ hi : BitVec m, hi &&& mask = 0 ∧ arg = hi ++ lo := by
  constructor
  · intro h
    obtain ⟨hi, lo, rfl⟩ : ∃ (hi : BitVec m) (lo : BitVec n), arg = hi ++ lo :=
      ⟨_, _, BitVec.extractLsb'_append_extractLsb'.symm⟩
    rw [BitVec.and_append, append_eq_zero_iff] at h
    exact ⟨lo, h.2, hi, h.1, rfl⟩
  · rintro ⟨lo, hlo, hi, hhi, rfl⟩
    rw [BitVec.and_append, append_eq_zero_iff]
    exact ⟨hhi, hlo⟩

/-- A used field holds anything. -/
theorem and_append_zero_iff {m n : Nat} (arg : BitVec (m + n)) (mask : BitVec m) :
    arg &&& (mask ++ 0#n) = 0 ↔ ∃ (lo : BitVec n) (hi : BitVec m), hi &&& mask = 0 ∧ arg = hi ++ lo := by
  rw [and_append_eq_zero_iff]
  simp

/-- A reserved field holds 0. -/
theorem and_append_allOnes_iff {m n : Nat} (arg : BitVec (m + n)) (mask : BitVec m) :
    arg &&& (mask ++ BitVec.allOnes n) = 0 ↔ ∃ hi : BitVec m, hi &&& mask = 0 ∧ arg = hi ++ 0#n := by
  rw [and_append_eq_zero_iff]
  simp

theorem exists_eq_ofBool (x : BitVec 1) : ∃ b : Bool, x = BitVec.ofBool b := by revert x; decide

/-! ## The formats of R100: an argument whose reserved bits are 0 is one spelled by the format's fields -/

/-- The argument of format A. -/
def packA (address : Address7) : BitVec 32 := (0 : BitVec 25) ++ address

/-- The argument of format B. -/
def packB (byte : Byte) : BitVec 32 := (0 : BitVec 24) ++ byte

/-- The argument of format S. -/
def packS (stop : Bool) : BitVec 32 := (0 : BitVec 31) ++ BitVec.ofBool stop

/-- The argument of format R. -/
def packR (address : Address7) (count : Byte) (stop : Bool) : BitVec 32 :=
  (0 : BitVec 15) ++ BitVec.ofBool stop ++ count ++ (0 : BitVec 1) ++ address

/-- The argument of format T. -/
def packT (address : Address7) (broadcast : Bool) (mask : Byte) : BitVec 32 :=
  (0 : BitVec 16) ++ mask ++ BitVec.ofBool broadcast ++ address

/-- The argument of format P. -/
def packP (sda scl : Byte) : BitVec 32 := (0 : BitVec 16) ++ scl ++ sda

/-- The arguments a format spells. -/
inductive Format.Spells : Format → BitVec 32 → Prop
  | N : Spells .N 0
  | A (address : Address7) : Spells .A (packA address)
  | B (byte : Byte) : Spells .B (packB byte)
  | S (stop : Bool) : Spells .S (packS stop)
  | R (address : Address7) (count : Byte) (stop : Bool) : Spells .R (packR address count stop)
  | T (address : Address7) (broadcast : Bool) (mask : Byte) : Spells .T (packT address broadcast mask)
  | F (frequency : Hertz) : Spells .F frequency
  | H (handle : Handle) : Spells .H handle
  | P (sda scl : Byte) : Spells .P (packP sda scl)

theorem reserved_N_iff (arg : BitVec 32) : arg &&& Format.N.reserved = 0 ↔ Format.N.Spells arg := by
  refine (Eq.congr_left (BitVec.and_allOnes (x := arg))).trans ?_
  constructor
  · rintro rfl
    exact .N
  · intro h
    cases h with
    | N => rfl

theorem reserved_A_iff (arg : BitVec 32) : arg &&& Format.A.reserved = 0 ↔ Format.A.Spells arg := by
  refine (and_append_zero_iff (m := 25) (n := 7) arg (BitVec.allOnes 25)).trans ?_
  simp only [BitVec.and_allOnes, exists_eq_left]
  constructor
  · rintro ⟨address, rfl⟩
    exact .A address
  · intro h
    cases h with
    | A address => exact ⟨address, rfl⟩

theorem reserved_B_iff (arg : BitVec 32) : arg &&& Format.B.reserved = 0 ↔ Format.B.Spells arg := by
  refine (and_append_zero_iff (m := 24) (n := 8) arg (BitVec.allOnes 24)).trans ?_
  simp only [BitVec.and_allOnes, exists_eq_left]
  constructor
  · rintro ⟨byte, rfl⟩
    exact .B byte
  · intro h
    cases h with
    | B byte => exact ⟨byte, rfl⟩

theorem reserved_S_iff (arg : BitVec 32) : arg &&& Format.S.reserved = 0 ↔ Format.S.Spells arg := by
  refine (and_append_zero_iff (m := 31) (n := 1) arg (BitVec.allOnes 31)).trans ?_
  simp only [BitVec.and_allOnes, exists_eq_left]
  constructor
  · rintro ⟨bit, rfl⟩
    obtain ⟨stop, rfl⟩ := exists_eq_ofBool bit
    exact .S stop
  · intro h
    cases h with
    | S stop => exact ⟨_, rfl⟩

theorem reserved_R_iff (arg : BitVec 32) : arg &&& Format.R.reserved = 0 ↔ Format.R.Spells arg := by
  refine (and_append_zero_iff (m := 15 + 1 + 8 + 1) (n := 7) arg
    (BitVec.allOnes 15 ++ 0#1 ++ 0#8 ++ BitVec.allOnes 1)).trans ?_
  simp only [and_append_zero_iff, and_append_allOnes_iff, BitVec.and_allOnes, exists_eq_left]
  constructor
  · rintro ⟨address, _, ⟨_, ⟨count, _, ⟨bit, rfl⟩, rfl⟩, rfl⟩, rfl⟩
    obtain ⟨stop, rfl⟩ := exists_eq_ofBool bit
    exact .R address count stop
  · intro h
    cases h with
    | R address count stop => exact ⟨address, _, ⟨_, ⟨count, _, ⟨_, rfl⟩, rfl⟩, rfl⟩, rfl⟩

theorem reserved_T_iff (arg : BitVec 32) : arg &&& Format.T.reserved = 0 ↔ Format.T.Spells arg := by
  refine (and_append_zero_iff (m := 16 + 8 + 1) (n := 7) arg (BitVec.allOnes 16 ++ 0#8 ++ 0#1)).trans ?_
  simp only [and_append_zero_iff, BitVec.and_allOnes, exists_eq_left]
  constructor
  · rintro ⟨address, _, ⟨bit, _, ⟨mask, rfl⟩, rfl⟩, rfl⟩
    obtain ⟨broadcast, rfl⟩ := exists_eq_ofBool bit
    exact .T address broadcast mask
  · intro h
    cases h with
    | T address broadcast mask => exact ⟨address, _, ⟨_, _, ⟨mask, rfl⟩, rfl⟩, rfl⟩

theorem reserved_P_iff (arg : BitVec 32) : arg &&& Format.P.reserved = 0 ↔ Format.P.Spells arg := by
  refine (and_append_zero_iff (m := 16 + 8) (n := 8) arg (BitVec.allOnes 16 ++ 0#8)).trans ?_
  simp only [and_append_zero_iff, BitVec.and_allOnes, exists_eq_left]
  constructor
  · rintro ⟨sda, _, ⟨scl, rfl⟩, rfl⟩
    exact .P sda scl
  · intro h
    cases h with
    | P sda scl => exact ⟨sda, _, ⟨scl, rfl⟩, rfl⟩

/-- The reserved bits of a format are 0 in the arguments it spells and in no other. -/
theorem Format.reserved_iff (f : Format) (arg : BitVec 32) : arg &&& f.reserved = 0 ↔ f.Spells arg := by
  cases f with
  | N => exact reserved_N_iff arg
  | A => exact reserved_A_iff arg
  | B => exact reserved_B_iff arg
  | S => exact reserved_S_iff arg
  | R => exact reserved_R_iff arg
  | T => exact reserved_T_iff arg
  | F => exact iff_of_true BitVec.and_zero (.F arg)
  | H => exact iff_of_true BitVec.and_zero (.H arg)
  | P => exact reserved_P_iff arg

/-! ## The fields of an argument read back (R100) -/

@[simp] theorem argAddress_packA (address : Address7) : argAddress (packA address) = address := extract_append_low ..

@[simp] theorem argLow_packB (byte : Byte) : argLow (packB byte) = byte := extract_append_low ..

@[simp] theorem getElem_packS (stop : Bool) : (packS stop)[0] = stop := by
  rw [← BitVec.getLsbD_eq_getElem, packS]
  simp only [BitVec.getLsbD_append]
  simp

@[simp] theorem argAddress_packR (address : Address7) (count : Byte) (stop : Bool) :
    argAddress (packR address count stop) = address := extract_append_low ..

@[simp] theorem argHigh_packR (address : Address7) (count : Byte) (stop : Bool) :
    argHigh (packR address count stop) = count := by
  rw [packR, argHigh, BitVec.extractLsb'_append_eq_of_le (v := 25) (w := 7) (by decide),
    BitVec.extractLsb'_append_eq_of_le (v := 24) (w := 1) (by decide)]
  exact extract_append_low ..

@[simp] theorem getElem_packR (address : Address7) (count : Byte) (stop : Bool) :
    (packR address count stop)[16] = stop := by
  rw [← BitVec.getLsbD_eq_getElem, packR]
  simp only [BitVec.getLsbD_append]
  simp

@[simp] theorem argAddress_packT (address : Address7) (broadcast : Bool) (mask : Byte) :
    argAddress (packT address broadcast mask) = address := extract_append_low ..

@[simp] theorem argHigh_packT (address : Address7) (broadcast : Bool) (mask : Byte) :
    argHigh (packT address broadcast mask) = mask := by
  rw [packT, argHigh, BitVec.extractLsb'_append_eq_of_le (v := 25) (w := 7) (by decide),
    BitVec.extractLsb'_append_eq_of_le (v := 24) (w := 1) (by decide)]
  exact extract_append_low ..

@[simp] theorem getElem_packT (address : Address7) (broadcast : Bool) (mask : Byte) :
    (packT address broadcast mask)[7] = broadcast := by
  rw [← BitVec.getLsbD_eq_getElem, packT]
  simp only [BitVec.getLsbD_append]
  simp

@[simp] theorem argLow_packP (sda scl : Byte) : argLow (packP sda scl) = sda := extract_append_low ..

@[simp] theorem argHigh_packP (sda scl : Byte) : argHigh (packP sda scl) = scl := by
  rw [packP, argHigh, BitVec.extractLsb'_append_eq_of_le (v := 24) (w := 8) (by decide)]
  exact extract_append_low ..

/-! ## The rows of R101 -/

theorem commandWord_op_arg (w : CommandWord) : commandWord w.op w.arg = w :=
  BitVec.extractLsb'_append_extractLsb' (w := 8) (len := 32)

/-- A word with a known opcode and an argument of its format spells what the opcode's row says. -/
theorem decodeCommand_commandWord {op : Byte} {arg : BitVec 32} {r : CommandRow} (hr : lookupCommand op = some r)
    (harg : r.format.Spells arg) : decodeCommand (commandWord op arg) = .ok (r.build arg) := by
  simp only [decodeCommand, op_commandWord, hr, arg_commandWord, if_pos ((r.format.reserved_iff arg).mpr harg)]

/-- A decoded word has the opcode of a row and an argument of its format. -/
theorem exists_row_of_decodeCommand {w : CommandWord} {i : Instr} (h : decodeCommand w = .ok i) :
    ∃ r ∈ commandTable, r.format.Spells w.arg ∧ r.build w.arg = i ∧ commandWord r.opcode w.arg = w := by
  unfold decodeCommand at h
  split at h
  · cases h
  · rename_i r hr
    split at h <;> cases h
    have hop : r.opcode = w.op := by simpa using List.find?_some hr
    exact ⟨r, List.mem_of_find?_eq_some hr, (r.format.reserved_iff w.arg).mp ‹_›, rfl, hop ▸ commandWord_op_arg w⟩

/-- The instruction a row builds from an argument is encoded as the row's opcode and that argument. -/
theorem encode_build {r : CommandRow} (hr : r ∈ commandTable) {arg : BitVec 32} (harg : r.format.Spells arg) :
    encode (r.build arg) = .command (commandWord r.opcode arg) := by
  simp only [commandTable, streamRows, sessionRows, configurationRows, List.cons_append, List.nil_append, List.mem_cons,
    List.not_mem_nil, or_false] at hr
  rcases hr with rfl | rfl | rfl | rfl | rfl | rfl | rfl | rfl | rfl | rfl | rfl | rfl | rfl | rfl | rfl | rfl | rfl |
    rfl | rfl | rfl | rfl
  -- one goal per row: the fields the row reads are those its format packs
  all_goals cases harg
  all_goals simp [encode]
  all_goals rfl

/-! ## The space of host command words -/

/-- The word of a host command decodes to it. -/
theorem decodeCommand_of_encode {w : CommandWord} {i : Instr} (h : encode i = .command w) : decodeCommand w = .ok i := by
  have hrow {op : Byte} {arg : BitVec 32} {r : CommandRow} (hr : lookupCommand op = some r) (harg : r.format.Spells arg)
      (hi : r.build arg = i) : decodeCommand (commandWord op arg) = .ok i := hi ▸ decodeCommand_commandWord hr harg
  cases i with
  | available | read | peek | flush | enableMaster | disableMaster | disableTarget | getIncoming | pullups | cbReturn =>
    cases h; exact hrow rfl .N rfl
  | setClock f | calcBaud f => cases h; exact hrow rfl (.F f) rfl
  | onReceive p | onRequest p => cases h; exact hrow rfl (.H p) rfl
  | beginTransmission a => cases h; exact hrow (arg := packA a) rfl (.A a) (by simp)
  | write b | swapPins b => cases h; exact hrow (arg := packB b) rfl (.B b) (by simp)
  | endTransmission stop => cases h; exact hrow (arg := packS stop) rfl (.S stop) (by simp)
  | request a n stop => cases h; exact hrow (arg := packR a n stop) rfl (.R a n stop) (by simp)
  | enableTarget a g m => cases h; exact hrow (arg := packT a g m) rfl (.T a g m) (by simp)
  | selectPins sda scl => cases h; exact hrow (arg := packP sda scl) rfl (.P sda scl) (by simp)
  | _ => cases h

theorem decodeCommand_eq_ok_iff (w : CommandWord) (i : Instr) : decodeCommand w = .ok i ↔ encode i = .command w := by
  refine ⟨fun h => ?_, decodeCommand_of_encode⟩
  obtain ⟨r, hr, harg, rfl, hw⟩ := exists_row_of_decodeCommand h
  rw [encode_build hr harg, hw]

/-! ## The spaces of keys and of command codes -/

theorem encode_decodeKey (k : Key) : encode (decodeKey k) = .key k := by
  simp only [decodeKey]
  repeat' split
  all_goals rfl

/-- The branch a key selects is the one whose pair of R110 the key matches. -/
theorem decodeKey_eq_iff (k : Key) (i : Instr) : decodeKey k = i ↔ i.wf = true ∧ encode i = .key k := by
  by_cases henc : encode i = .key k
  · obtain ⟨hbuserr, hstop, haddrW, haddrR, hdataRx, hdataReq, hnack, hillegal, -⟩ := keyPairsSelectTheBranch k
    cases i with
    | tBuserr | tStop | tAddrW | tAddrR | tDataRx | tDataReq | tNack | tIllegal =>
      cases henc
      simpa [encode, Instr.wf, keyMatches]
    | _ => cases henc
  · exact iff_of_false (fun h => henc (h ▸ encode_decodeKey k)) fun h => henc h.2

theorem decodeMasterCode_eq_some_iff (c : Byte) (i : Instr) :
    decodeMasterCode c = some i ↔ encode i = .masterCode c := by
  constructor
  · intro h
    unfold decodeMasterCode at h
    split_ifs at h <;> cases h <;> subst c <;> rfl
  · intro h
    cases i with
    | mRepstart | mAckRecv | mStop | mNackHold | mNackStop => cases h; rfl
    | _ => cases h

theorem decodeTargetCode_eq_some_iff (c : Byte) (i : Instr) :
    decodeTargetCode c = some i ↔ encode i = .targetCode c := by
  constructor
  · intro h
    unfold decodeTargetCode at h
    split_ifs at h <;> cases h <;> subst c <;> rfl
  · intro h
    cases i with
    | tWaitStart | tAckResponse | tNackWaitStart => cases h; rfl
    | _ => cases h

/-! ## The statements -/

/-- Only dispatcher branches can be ill formed (R110). -/
theorem wf_of_encode_ne_key {i : Instr} (h : ∀ k, encode i ≠ .key k) : i.wf = true := by
  cases i with
  | tBuserr k | tStop k | tAddrW k | tAddrR k | tDataRx k | tDataReq k | tNack k | tIllegal k => exact absurd rfl (h k)
  | _ => rfl

/-- The decoder of all four spaces answers the well-formed instruction that the word encodes, and no other. -/
theorem decode_eq_some_iff (e : Encoded) (i : Instr) : decode e = some i ↔ i.wf = true ∧ encode i = e := by
  have hwf {e : Encoded} (he : ∀ k, e ≠ .key k) : i.wf = true ∧ encode i = e ↔ encode i = e :=
    and_iff_right_of_imp fun h => wf_of_encode_ne_key (h ▸ he)
  cases e with
  | command w =>
    rw [hwf (by simp), ← decodeCommand_eq_ok_iff]
    exact ⟨Machine.decodeCommand_of_decode, Machine.decode_of_decodeCommand⟩
  | key k => exact Option.some_inj.trans (decodeKey_eq_iff k i)
  | masterCode c => exact (decodeMasterCode_eq_some_iff c i).trans (hwf (by simp)).symm
  | targetCode c => exact (decodeTargetCode_eq_some_iff c i).trans (hwf (by simp)).symm

/-- Settles O1: the decoder answers exactly the well-formed instruction a word encodes. -/
theorem decodeOfEncodeIsIdentity : Obligations.DecodeOfEncodeIsIdentity := by
  unfold Obligations.DecodeOfEncodeIsIdentity
  exact fun i hwf => (decode_eq_some_iff _ i).mpr ⟨hwf, rfl⟩

/-- Settles O2: the decoder answers nothing but the well-formed instruction a word encodes. -/
theorem encodeOfDecodeIsIdentity : Obligations.EncodeOfDecodeIsIdentity := by
  unfold Obligations.EncodeOfDecodeIsIdentity
  exact fun e i h => (decode_eq_some_iff e i).mp h

/-- Settles O4: the decoder evaluated on each word. -/
theorem writtenOutWordsDecode : Obligations.WrittenOutWordsDecode := by
  unfold Obligations.WrittenOutWordsDecode
  decide

end Sys2Proof
end

section
/-! PROOFS. The ring buffer refines a bounded queue (R142 to R149): its unread bytes are the queue. -/

namespace Sys2Proof.Machine

section
variable {n : Nat} {rb : RingBuffer}

theorem RingBuffer.isFull_iff_length_unread (h : rb.wf n = true) :
    rb.isFull n = true ↔ (rb.unread n).length = n - 1 := by
  obtain ⟨hh, ht, _⟩ := (rb.wf_iff n).mp h
  rw [rb.length_unread, rb.isFull_iff n hh ht]

theorem RingBuffer.isEmpty_iff_unread (h : rb.wf n = true) : rb.isEmpty = true ↔ rb.unread n = [] := by
  obtain ⟨hh, ht, _⟩ := (rb.wf_iff n).mp h
  rw [rb.isEmpty_iff n hh ht, ← rb.length_unread, List.length_eq_zero_iff]

/-- A push at N-1 bytes is rejected and changes nothing; one before that is accepted and appends its byte (R144). -/
theorem RingBuffer.tryPush_queue (h : rb.wf n = true) (b : Byte) :
    rb.tryPush n b = (if (rb.unread n).length = n - 1 then (false, rb) else (true, (rb.tryPush n b).2)) ∧
    (rb.tryPush n b).2.unread n = (if (rb.unread n).length = n - 1 then rb.unread n else rb.unread n ++ [b]) := by
  simp only [← RingBuffer.isFull_iff_length_unread h]
  rcases rb.tryPush_cases n b with ⟨hfull, e⟩ | ⟨hroom, e⟩
  · simp [hfull, e]
  · have happended := RingBuffer.unread_tryPush h (b := b) (by rw [e])
    rw [e] at happended
    simp [hroom, e, happended]

/-- `peek` answers what `pop` does (R145, R146). -/
theorem RingBuffer.peek_eq_pop (n : Nat) (rb : RingBuffer) : rb.peek = (rb.pop n).1 := by
  rcases rb.pop_cases n with ⟨hempty, e⟩ | ⟨hempty, e⟩ <;> simp [RingBuffer.peek, hempty, e]

end

/-- Settles O54: each primitive is the queue operation on the unread bytes, by its own lemma. -/
theorem ringBufferRefinesABoundedQueue : Obligations.RingBufferRefinesABoundedQueue := by
  unfold Obligations.RingBufferRefinesABoundedQueue
  intro n rb b h _
  have hlt := RingBuffer.available_lt h
  obtain ⟨hpush, hqueue⟩ := RingBuffer.tryPush_queue h b
  obtain ⟨hfirst, hothers⟩ := RingBuffer.pop_unread h
  exact ⟨(rb.length_unread n).symm, by rw [rb.length_unread]; omega, RingBuffer.isEmpty_iff_unread h,
    RingBuffer.isFull_iff_length_unread h, hpush, hqueue, hfirst, hothers, (rb.peek_eq_pop n).trans hfirst,
    rb.unread_rewind n, rb.unread_discard n⟩

end Sys2Proof.Machine
end

section
/-! PROOFS. The storage, role and transaction invariants hold after reset (R60). -/

namespace Sys2Proof.Machine

/-! ## One engine after reset -/

/-- A buffer has at least one cell (R6). -/
theorem Params.bufN_pos {p : Params} (h : p.wf = true) : 0 < p.bufN := by
  simp only [Params.wf, Bool.and_eq_true, decide_eq_true_eq] at h
  omega

/-- The indices 0 are below any length, and no storage cell is listed. -/
theorem Engine.storageWf_resetWith {p : Params} (h : p.wf = true) (port : Port) :
    (Engine.resetWith port).storageWf p := by
  have hbuf := RingBuffer.reset_wf p.bufN (Params.bufN_pos h)
  exact ⟨hbuf, hbuf, hbuf, hbuf, fun _ => ⟨rfl, rfl⟩, BitVec.getLsbD_zero⟩

/-- Every flag is off, every register 0 and no callback runs. -/
theorem Engine.roleWf_resetWith (p : Params) : (Engine.resetWith Port.zero).roleWf p := by
  simp [Engine.roleWf, Engine.resetWith, Port.zero, isMasterCode, isTargetCode]

/-! ## The machine after reset -/

theorem State.storageInv_resetWith {p : Params} (h : p.wf = true) (port0 port1 : Port) :
    (State.resetWith p port0 port1).storageInv := by
  refine ⟨h, rfl, fun i => ?_⟩
  cases i with
  | i0 => exact Engine.storageWf_resetWith h port0
  | i1 => exact Engine.storageWf_resetWith h port1

theorem mstate_resetWith (p : Params) (port0 port1 : Port) (i : InstId) :
    ((State.resetWith p port0 port1).engineOf i).mstate = .idle := by
  cases i <;> rfl

/-! ## The statements -/

/-- Settles O43: both engines have the storage of `Engine.resetWith`. -/
theorem storageInvariantAtReset : Obligations.StorageInvariantAtReset := by
  unfold Obligations.StorageInvariantAtReset
  exact fun _ port0 port1 h => State.storageInv_resetWith h port0 port1

/-- Settles O45: both engines are `Engine.resetWith Port.zero`. -/
theorem roleInvariantAtReset : Obligations.RoleInvariantAtReset := by
  unfold Obligations.RoleInvariantAtReset
  intro p i
  rw [engineOf_resetWith]
  exact Engine.roleWf_resetWith p

/-- Settles O47: the storage invariant holds and no engine is in a transaction. -/
theorem transactionInvariantAtReset : Obligations.TransactionInvariantAtReset := by
  unfold Obligations.TransactionInvariantAtReset
  intro p port0 port1 h
  exact ⟨State.storageInv_resetWith h port0 port1,
    fun i => Engine.transactionWf_of_idle (mstate_resetWith p port0 port1 i), fun ⟨hbusy, _⟩ => hbusy rfl⟩

end Sys2Proof.Machine
end
